-- ==== Sys2Proof/Word.lean ====
section
/-! DEFINITION. The data types of `00_scope.md` R9, R12: a byte, byte strings of any length, byte strings of a fixed
length, and the 16-bit unsigned integers that frames carry. -/

namespace Sys2Proof

/-- A byte: an unsigned 8-bit value, bit 7 the most significant (R9, R12). -/
abbrev Byte := BitVec 8

/-- `B[*]`, a byte string of any length, byte 0 first (R9, R60). -/
abbrev Bytes := List Byte

/-- `B[n]`, the byte strings of exactly `n` bytes (R9). -/
abbrev B (n : Nat) := Vector Byte n

/-- A 16-bit unsigned integer of a frame: a session id, a length or a status word (R61, R65). -/
abbrev U16 := BitVec 16

end Sys2Proof
end

