-- ==== Sys2Proof/Config.lean ====
section
/-! DEFINITION. The implementation parameters of `00_scope.md` R8. A parameter the spec fixes has its value; a
parameter the spec leaves OPEN as a function is an opaque constant, so that no proof can see which function it is. -/

namespace Sys2Proof

/-- `MAX_LOGICAL_CHANNELS` (R8). -/
def Config.maxLogicalChannels : Nat := 4

/-- `SESSION_ID_BASE` (R8). -/
def Config.sessionIdBase : U16 := 257

/-- `SESSION_ID_MAX` (R8, decision D5). -/
def Config.sessionIdMax : U16 := 65535

/-- `AID_MIN_BYTES` (R8, decision D10). -/
def Config.aidMinBytes : Nat := 1

/-- `AID_MAX_BYTES` (R8, decision D10). -/
def Config.aidMaxBytes : Nat := 16

/-- The largest `N_AIDS` (R8, R381, conflict C11). -/
def Config.maxAids : Nat := 255

/-- `N_PORTS` of the one state `State.reset`. The spec leaves it OPEN (R8, D29: any positive number). DESIGN CHOICE,
unsafe for a claim about `State.reset` only: a first reset takes the number as an argument, an instance carries its own,
and every other definition works on a port list of any length. Log entry 2. -/
def Config.nPorts : Nat := 2

/-- `COMP128V1 : B[16] x B[16] -> B[12]`, OPEN (R8, R172, D34): a total function of `Ki` and `RAND`, nothing more.
DESIGN CHOICE (free value), safe. Log entry 4. -/
opaque Config.comp128v1 : B 16 → B 16 → B 12

/-- The five substitution tables of `41_comp128.md` section 3 as one family: table `j` takes an index below
`2^(9-j)` to a value below `2^(8-j)`, which is the size and range R8 and section 3 give each of `T0` to `T4`. -/
abbrev Config.Tables := (j : Nat) → BitVec (9 - j) → BitVec (8 - j)

/-- `COMP128_TABLES`, OPEN (R8, D34). DESIGN CHOICE (free value), safe. Log entry 4. -/
opaque Config.comp128Tables : Config.Tables

/-- How many further services the `n`-th submitted command of the instance with stream `stream` may have to wait before
no later command can overtake it. The free choice of the arbiter (R290, D29, I7): DESIGN CHOICE (free value), safe. Log
entry 3; the stream, by which instances draw independently (R74, R372), is log entry 19. -/
opaque Config.patience (stream n : Nat) : Nat

/-- The `ok` of the file-system collaborator's answer to the `n`-th call of the instance with stream `stream` (R313,
D37, I8: a free draw). DESIGN CHOICE (free value), safe. Log entry 5; the stream is log entry 19. -/
opaque Config.fileOk (stream n : Nat) (cmd : Bytes) : Bool

/-- The number of text bytes of that answer's response; a `LV2` field holds at most 65535 (R91, R96). Log entry 5. -/
opaque Config.fileLen (stream n : Nat) (cmd : Bytes) : U16

/-- The text bytes of that answer's response. Log entry 5. -/
opaque Config.fileByte (stream n : Nat) (cmd : Bytes) (i : Nat) : Byte

end Sys2Proof
end

