-- ==== Sys2Proof/Syntax.lean ====
section
/-! DEFINITION. The commands of the block: one constructor per row of spec/opcode_table.json (R93 for the ten command
frames, R104 for the two AUTHENTICATE APDUs that a frame of opcode 0x05 carries). -/

namespace Sys2Proof

/-- A command. Operands are the byte strings and integers of the frame formats (R92), unchecked: a wrong operand width
is an error of the command, not of the frame (R91). -/
inductive Instr where
  /-- LIST_AIDS, opcode 0x01, format F-N. -/
  | listAids
  /-- OPEN_CHANNEL, opcode 0x02, format F-A. -/
  | openChannel (aid : Bytes)
  /-- CLOSE_CHANNEL, opcode 0x03, format F-I. -/
  | closeChannel (id : U16)
  /-- LOOKUP, opcode 0x04, format F-I. -/
  | lookup (id : U16)
  /-- APDU_EXEC, opcode 0x05, format F-IA, with an APDU whose header is neither AUTHENTICATE header of R104. -/
  | apduExec (id : U16) (apdu : Bytes)
  /-- FILE_ACCESS, opcode 0x06, format F-IT. -/
  | fileAccess (id : U16) (cmd : Bytes)
  /-- AES_ENCRYPT, opcode 0x10, format F-AES. -/
  | aesEncrypt (key pt : Bytes)
  /-- GSM_AUTH, opcode 0x11, format F-GSM. -/
  | gsmAuth (ki rand : Bytes)
  /-- UMTS_AUTH, opcode 0x12, format F-UMTS. -/
  | umtsAuth (ki opc sqn rand autn : Bytes)
  /-- CLASSIFY, opcode 0x13, format F-CLS. -/
  | classify (hdr : Bytes) (apptype : Byte)
  /-- AUTHENTICATE_GSM: the APDU `00 88 00 80 11` on session `id`; `body` is what follows the header (R104). -/
  | authenticateGsm (id : U16) (body : Bytes)
  /-- AUTHENTICATE_UMTS: the APDU `00 88 00 81 22` on session `id`; `body` is what follows the header (R104). -/
  | authenticateUmts (id : U16) (body : Bytes)
deriving DecidableEq, Repr

/-- The header of the AUTHENTICATE APDU in GSM context (R104). -/
def gsmHeader : Bytes := [0x00, 0x88, 0x00, 0x80, 0x11]

/-- The header of the AUTHENTICATE APDU in UMTS context (R104). -/
def umtsHeader : Bytes := [0x00, 0x88, 0x00, 0x81, 0x22]

end Sys2Proof
end

