-- ==== Sys2Proof/WellFormed.lean ====
section
/-! DEFINITION. The commands a frame can carry: every operand fits its length field (R91), and an APDU with an
AUTHENTICATE header is written as that row of the table, so that each frame is one command. -/

namespace Sys2Proof

/-- The operand fits a `LV1` field: at most 255 bytes (R91). -/
def fitsLV1 (x : Bytes) : Bool := x.length < 256

/-- The operand fits a `LV2` field: at most 65535 bytes (R91). -/
def fitsLV2 (x : Bytes) : Bool := x.length < 65536

/-- The APDU is not one of the two AUTHENTICATE rows of the opcode table (R104). -/
def plainApdu (apdu : Bytes) : Bool := apdu.take 5 != gsmHeader && apdu.take 5 != umtsHeader

/-- The command can be carried by a frame, and is the one reading of that frame. -/
def Instr.wf : Instr → Bool
  | .listAids => true
  | .openChannel aid => fitsLV1 aid
  | .closeChannel _ => true
  | .lookup _ => true
  | .apduExec _ apdu => fitsLV2 apdu && plainApdu apdu
  | .fileAccess _ cmd => fitsLV2 cmd
  | .aesEncrypt key pt => fitsLV1 key && fitsLV1 pt
  | .gsmAuth ki rand => fitsLV1 ki && fitsLV1 rand
  | .umtsAuth ki opc sqn rand autn =>
    fitsLV1 ki && fitsLV1 opc && fitsLV1 sqn && fitsLV1 rand && fitsLV1 autn
  | .classify hdr _ => fitsLV1 hdr
  | .authenticateGsm _ body => fitsLV2 (gsmHeader ++ body)
  | .authenticateUmts _ body => fitsLV2 (umtsHeader ++ body)

end Sys2Proof
end

