-- ==== Sys2Proof/Decode.lean ====
section
/-! DEFINITION. Command frames (`30_encoding.md` section 1): the field kinds (R91), the formats and the opcode map
(R92, R93), the decoder, the encoder, and the table words the host asks about. -/

namespace Sys2Proof

/-- Why a byte string is not a well-formed frame (R91, R94). Each gets the response `ERR_FRAME`. -/
inductive FrameError where
  /-- No opcode byte: a frame has at least one byte (R90). -/
  | noOpcode
  /-- An opcode outside R93 (R94). -/
  | reservedOpcode
  /-- A field runs past the end of the frame (R91). -/
  | truncated
  /-- Bytes are left over after the last field (R91). -/
  | trailingBytes
deriving DecidableEq, Repr

/-- The field kinds of command frames (R91). -/
inductive FieldKind where
  | u8
  | u16
  | lv1
  | lv2
deriving DecidableEq, Repr

/-- A field's value, tagged with its kind (R91). -/
inductive Field where
  | u8 (v : Byte)
  | u16 (v : U16)
  | lv1 (v : Bytes)
  | lv2 (v : Bytes)
deriving DecidableEq, Repr

/-- The two bytes of a 16-bit integer, most significant first (R61). -/
def u16Bytes (v : U16) : Bytes := [v.extractLsb' 8 8, v.extractLsb' 0 8]

/-- `u16` of two bytes, `int` of them (R12, R13, R61). -/
def u16OfBytes (hi lo : Byte) : U16 := BitVec.ofNat 16 (hi.toNat * 256 + lo.toNat)

/-- `LV1`: a length byte, then the bytes (R91). -/
def lv1 (x : Bytes) : Bytes := BitVec.ofNat 8 x.length :: x

/-- `LV2`: a `u16` length, then the bytes (R91). -/
def lv2 (x : Bytes) : Bytes := u16Bytes (BitVec.ofNat 16 x.length) ++ x

/-- The first `n` bytes and the rest; none where there are fewer than `n`. -/
def splitBytes (n : Nat) (b : Bytes) : Option (Bytes × Bytes) :=
  if n ≤ b.length then some (b.take n, b.drop n) else none

/-- One field read from the front of the bytes (R91). -/
def readField : FieldKind → Bytes → Option (Field × Bytes)
  | .u8, v :: rest => some (.u8 v, rest)
  | .u16, hi :: lo :: rest => some (.u16 (u16OfBytes hi lo), rest)
  | .lv1, len :: rest => (splitBytes len.toNat rest).map fun p => (.lv1 p.1, p.2)
  | .lv2, hi :: lo :: rest => (splitBytes (u16OfBytes hi lo).toNat rest).map fun p => (.lv2 p.1, p.2)
  | _, _ => none

/-- The fields of a format, read left to right (R91). -/
def readFields : List FieldKind → Bytes → Option (List Field × Bytes)
  | [], b => some ([], b)
  | k :: ks, b => do
    let (f, rest) ← readField k b
    let (fs, rest') ← readFields ks rest
    pure (f :: fs, rest')

/-- The bytes of a field (R91). -/
def writeField : Field → Bytes
  | .u8 v => [v]
  | .u16 v => u16Bytes v
  | .lv1 v => lv1 v
  | .lv2 v => lv2 v

/-- The opcode map (R93) with the fields of each format (R92). Every other opcode is reserved (R94). -/
def opcodeFormat (op : Byte) : Option (List FieldKind) :=
  match op.toNat with
  | 0x01 => some []
  | 0x02 => some [.lv1]
  | 0x03 => some [.u16]
  | 0x04 => some [.u16]
  | 0x05 => some [.u16, .lv2]
  | 0x06 => some [.u16, .lv2]
  | 0x10 => some [.lv1, .lv1]
  | 0x11 => some [.lv1, .lv1]
  | 0x12 => some [.lv1, .lv1, .lv1, .lv1, .lv1]
  | 0x13 => some [.lv1, .u8]
  | _ => none

/-- The command of an APDU on a session: the AUTHENTICATE rows by their 40-bit header, every other APDU as
APDU_EXEC (R104; log entry 7). -/
def apduCommand (id : U16) (apdu : Bytes) : Instr :=
  if apdu.take 5 = gsmHeader then .authenticateGsm id (apdu.drop 5)
  else if apdu.take 5 = umtsHeader then .authenticateUmts id (apdu.drop 5)
  else .apduExec id apdu

/-- The command of an opcode and its fields (R92, R93). -/
def assemble (op : Byte) (fs : List Field) : Option Instr :=
  match op.toNat, fs with
  | 0x01, [] => some .listAids
  | 0x02, [.lv1 aid] => some (.openChannel aid)
  | 0x03, [.u16 id] => some (.closeChannel id)
  | 0x04, [.u16 id] => some (.lookup id)
  | 0x05, [.u16 id, .lv2 apdu] => some (apduCommand id apdu)
  | 0x06, [.u16 id, .lv2 cmd] => some (.fileAccess id cmd)
  | 0x10, [.lv1 key, .lv1 pt] => some (.aesEncrypt key pt)
  | 0x11, [.lv1 ki, .lv1 rand] => some (.gsmAuth ki rand)
  | 0x12, [.lv1 ki, .lv1 opc, .lv1 sqn, .lv1 rand, .lv1 autn] => some (.umtsAuth ki opc sqn rand autn)
  | 0x13, [.lv1 hdr, .u8 apptype] => some (.classify hdr apptype)
  | _, _ => none

/-- The decoder: a frame is a command, or is refused by name (R91, R97). It reads no state. -/
def decode (frame : Bytes) : Except FrameError Instr :=
  match frame with
  | [] => .error .noOpcode
  | op :: rest =>
    match opcodeFormat op with
    | none => .error .reservedOpcode
    | some kinds =>
      match readFields kinds rest with
      | none => .error .truncated
      | some (_, _ :: _) => .error .trailingBytes
      | some (fs, []) =>
        match assemble op fs with
        | some i => .ok i
        | none => .error .reservedOpcode

/-- The opcode byte of a command's frame (R93). -/
def opcodeOf : Instr → Byte
  | .listAids => 0x01
  | .openChannel _ => 0x02
  | .closeChannel _ => 0x03
  | .lookup _ => 0x04
  | .apduExec _ _ => 0x05
  | .fileAccess _ _ => 0x06
  | .aesEncrypt _ _ => 0x10
  | .gsmAuth _ _ => 0x11
  | .umtsAuth _ _ _ _ _ => 0x12
  | .classify _ _ => 0x13
  | .authenticateGsm _ _ => 0x05
  | .authenticateUmts _ _ => 0x05

/-- The operand fields of a command's frame, in order (R92). -/
def fieldsOf : Instr → List Field
  | .listAids => []
  | .openChannel aid => [.lv1 aid]
  | .closeChannel id => [.u16 id]
  | .lookup id => [.u16 id]
  | .apduExec id apdu => [.u16 id, .lv2 apdu]
  | .fileAccess id cmd => [.u16 id, .lv2 cmd]
  | .aesEncrypt key pt => [.lv1 key, .lv1 pt]
  | .gsmAuth ki rand => [.lv1 ki, .lv1 rand]
  | .umtsAuth ki opc sqn rand autn => [.lv1 ki, .lv1 opc, .lv1 sqn, .lv1 rand, .lv1 autn]
  | .classify hdr apptype => [.lv1 hdr, .u8 apptype]
  | .authenticateGsm id body => [.u16 id, .lv2 (gsmHeader ++ body)]
  | .authenticateUmts id body => [.u16 id, .lv2 (umtsHeader ++ body)]

/-- The encoder: the frame of a command (R90, R92). -/
def encode (i : Instr) : Bytes := opcodeOf i :: (fieldsOf i).flatMap writeField

/-- The `n` bytes of a table word, bits 7..0 first. -/
def wordBytes : Nat → Nat → Bytes
  | 0, _ => []
  | n + 1, w => BitVec.ofNat 8 w :: wordBytes n (w / 256)

/-- The first `n` bytes, zeros standing for those that are missing. -/
def zeroTake (n : Nat) (b : Bytes) : Bytes := b.take n ++ List.replicate (n - b.length) 0

/-- The bytes of one field, zeros standing for those that are missing, and what follows it. -/
def zeroFillField (k : FieldKind) (b : Bytes) : Bytes × Bytes :=
  match k with
  | .u8 => (zeroTake 1 b, b.drop 1)
  | .u16 => (zeroTake 2 b, b.drop 2)
  | .lv1 =>
    let len := (b.headD 0).toNat
    (zeroTake (1 + len) b, b.drop (1 + len))
  | .lv2 =>
    let len := (u16OfBytes (b.getD 0 0) (b.getD 1 0)).toNat
    (zeroTake (2 + len) b, b.drop (2 + len))

/-- The bytes of the fields, zeros standing for those that are missing; bytes left over stay. -/
def zeroFillFields : List FieldKind → Bytes → Bytes
  | [], b => b
  | k :: ks, b =>
    let (field, rest) := zeroFillField k b
    field ++ zeroFillFields ks rest

/-- The frame whose first bytes are given, its operand bytes above them zero. -/
def zeroFill : Bytes → Bytes
  | [] => []
  | op :: rest => op :: zeroFillFields ((opcodeFormat op).getD []) rest

/-- The APDU header of a 40-bit table word: `h[39:32]` is CLA (R100), which is how the table numbers the two
AUTHENTICATE rows. A word that is neither header read that way is read with its low byte first. Log entry 8. -/
def apduHeaderOfWord (w : Nat) : Bytes :=
  let h := (wordBytes 5 w).reverse
  if h = gsmHeader ∨ h = umtsHeader then h else wordBytes 5 w

/-- The frame of a table word: a 40-bit word is an APDU header, carried by APDU_EXEC on session 0 with `Lc` zero data
bytes; any other word is the first bytes of a command frame. -/
def tableFrame (nbits w : Nat) : Bytes :=
  if nbits = 40 then
    let h := apduHeaderOfWord w
    0x05 :: u16Bytes 0 ++ lv2 (h ++ List.replicate (h.getD 4 0).toNat 0)
  else zeroFill (wordBytes (nbits / 8) w)

/-- The command the decoder reads from a word of spec/opcode_table.json. -/
def decodeTableWord (nbits w : Nat) : Option Instr := (decode (tableFrame nbits w)).toOption

end Sys2Proof
end

