-- ==== Sys2Proof/Machine/State.lean ====
section
/-! DEFINITION. The state record `S` of one instance (`10_state.md` R22): configuration registers, session table, id
counter, working values, ports, and the model's own bookkeeping fields. Faults and refusals. The state after reset. -/

namespace Sys2Proof.Machine

/-- `AppType` (R27). -/
inductive AppType where
  | other
  | usim
  | isim
deriving DecidableEq, Repr

/-- `AidEntry`: one entry of the registry (R26). -/
structure AidEntry where
  aid : Bytes
  type : AppType
deriving DecidableEq, Repr

/-- `CFG`, the configuration registers (R22 to R29). -/
structure CardConfig where
  /-- `CFG.Ki` (R23). -/
  ki : B 16
  /-- `CFG.OPc` (R24). -/
  opc : B 16
  /-- `CFG.SQN` (R25). -/
  sqn : B 6
  /-- `CFG.AIDS` (R26), in configuration order. -/
  aids : List AidEntry
  /-- `CFG.CIPHER_AVAILABLE` (R28). -/
  cipherAvailable : Bool
deriving DecidableEq, Repr

/-- `Slot`, one slot of the session table (R30). -/
structure Slot where
  valid : Bool
  id : U16
  aid : Bytes
  type : AppType
deriving DecidableEq, Repr

/-- `SESS`, the four slots of the session table (R22, R30). -/
structure SessionTable where
  slot0 : Slot
  slot1 : Slot
  slot2 : Slot
  slot3 : Slot
deriving DecidableEq, Repr

/-- `WORK`, the working values of the command in execution (R35; IN1* and OUT1* of R203). -/
structure Working where
  /-- The AES state in block order (R143). -/
  aesState : B 16
  /-- The expanded key `w[0..43]` (R150). -/
  keySchedule : List (B 4)
  /-- The COMP128 array `x` (R176). -/
  x : List Nat
  /-- The COMP128 array `bit` (R176). -/
  bit : List Bool
  /-- `TEMP` (R193). -/
  temp : B 16
  /-- `OUT1` (R196). -/
  out1 : B 16
  /-- `OUT2` (R194). -/
  out2 : B 16
  /-- `OUT3` (R35), taken as the f3 output (CK, R200). PRESUMED, log entry 20: no rule says which value it is. -/
  out3 : B 16
  /-- `OUT4` (R35), taken as the f4 output (IK, R200). PRESUMED, log entry 20: no rule says which value it is. -/
  out4 : B 16
  /-- `OUT5` (R35), taken as the f5* output block, whose first six bytes are `AK*` (R198). PRESUMED, log entry 20: no
  rule says which value it is. -/
  out5 : B 16
  /-- `IN1` (R196). -/
  in1 : B 16
  /-- `IN1*` (R198). -/
  in1Star : B 16
  /-- `OUT1*` (R198). -/
  out1Star : B 16
  /-- `AK` (R194). -/
  ak : B 6
  /-- `AK*` (R198). -/
  akStar : B 6
  /-- The recovered `SQN` (R195). -/
  sqn : B 6
  /-- `MAC-A` (R196). -/
  macA : B 8
  /-- `MAC-S` (R198). -/
  macS : B 8
deriving DecidableEq, Repr

/-- `WORK` between commands: all zero (R35, R37, R39). -/
def Working.cleared : Working where
  aesState := Vector.replicate 16 0
  keySchedule := List.replicate 44 (Vector.replicate 4 0)
  x := List.replicate 32 0
  bit := List.replicate 128 false
  temp := Vector.replicate 16 0
  out1 := Vector.replicate 16 0
  out2 := Vector.replicate 16 0
  out3 := Vector.replicate 16 0
  out4 := Vector.replicate 16 0
  out5 := Vector.replicate 16 0
  in1 := Vector.replicate 16 0
  in1Star := Vector.replicate 16 0
  out1Star := Vector.replicate 16 0
  ak := Vector.replicate 6 0
  akStar := Vector.replicate 6 0
  sqn := Vector.replicate 6 0
  macA := Vector.replicate 8 0
  macS := Vector.replicate 8 0

/-- `PortState` (R290): `Idle`, or `Pending(F)`. `due` is the model's own: the number of services after which no later
command overtakes this one, which is how the arbiter's free and weakly fair choice is held (log entry 3). -/
inductive PortState where
  | idle
  | pending (frame : Bytes) (due : Nat)
deriving DecidableEq, Repr

/-- A host port: its state (R290) and, the model's own, the response last delivered on it (log entry 10). -/
structure Port where
  status : PortState
  reply : Option Bytes
deriving DecidableEq, Repr

/-- The state of one instance (R22): `cfg`, `sess`, `nextId`, `work` and the port states are the spec's, the other
fields the model's own (log entry 10). -/
structure State where
  /-- `CFG` (R23 to R29). -/
  cfg : CardConfig
  /-- `SESS` (R30). -/
  sess : SessionTable
  /-- `NEXT_ID` (R32). -/
  nextId : U16
  /-- `WORK` (R35). -/
  work : Working
  /-- `PORT`, one entry per host port (R290). -/
  ports : List Port
  /-- Model's own: the response frame of the command just executed, until it is delivered. -/
  out : Option Bytes
  /-- Model's own: how many commands the arbiter has served (the total order of R72). -/
  served : Nat
  /-- Model's own: how many commands hosts have submitted; it indexes the free value `Config.patience`. -/
  submitted : Nat
  /-- Model's own: how many times the file-system collaborator was called; it indexes the free answers (R313). -/
  fsCalls : Nat
  /-- Model's own: the stream this instance's free values are drawn from, so that two instances of different streams draw
  independently (R74, R290, R313, R372). DESIGN CHOICE, log entry 19. No step and no later reset changes it. -/
  stream : Nat
deriving DecidableEq, Repr

/-- Why the machine stops. No command faults: every failure is a response (R350, R356). -/
inductive Fault where
  /-- Raised by `Instance.step` on an instance that was never reset: a command sent to it gets no response (R385, I17
  `stuck`). Safe: nothing is claimed of such an instance. -/
  | neverReset
deriving DecidableEq, Repr

/-- Why an instruction has no meaning. -/
inductive Refusal where
  /-- The dispatcher's refusal of a command that has no meaning in this model. No arm raises it. Safe. -/
  | notModelled (mnemonic : String)
deriving DecidableEq, Repr

/-- A slot after reset. The spec leaves `id`, `aid` and `type` unspecified and unobservable and allows these values
(R39, I6). DESIGN CHOICE, unsafe in principle. Log entry 11. -/
def Slot.free : Slot where
  valid := false
  id := 0
  aid := []
  type := .other

/-- The session table after reset: no session open (R39). -/
def SessionTable.empty : SessionTable where
  slot0 := .free
  slot1 := .free
  slot2 := .free
  slot3 := .free

/-- A port after reset (R39), with nothing delivered on it. -/
def Port.fresh : Port where
  status := .idle
  reply := none

/-- The configuration the reset state is loaded with: `CFG1` of `95_test_vectors.md`. The spec leaves the record OPEN
(R39, R381). DESIGN CHOICE, unsafe for a claim about `State.reset` only. Log entry 1. -/
def CardConfig.reference : CardConfig where
  ki := #v[0x46, 0x5B, 0x5C, 0xE8, 0xB1, 0x99, 0xB4, 0x9F, 0xAA, 0x5F, 0x0A, 0x2E, 0xE2, 0x38, 0xA6, 0xBC]
  opc := #v[0xCD, 0x63, 0xCB, 0x71, 0x95, 0x4A, 0x9F, 0x4E, 0x48, 0xA5, 0x99, 0x4E, 0x37, 0xA0, 0x2B, 0xAF]
  sqn := #v[0xFF, 0x9B, 0xB4, 0xD0, 0xB6, 0x07]
  aids := [⟨[0xA0, 0x00, 0x00, 0x00, 0x87, 0x10, 0x02], .usim⟩, ⟨[0xA0, 0x00, 0x00, 0x00, 0x87, 0x10, 0x04], .isim⟩]
  cipherAvailable := true

/-- The state `RESET` gives a new instance of a number of ports and a stream of free values, from a loaded
configuration (R39, R380). -/
def State.fresh (cfg : CardConfig) (nPorts stream : Nat) : State where
  cfg := cfg
  sess := .empty
  nextId := Config.sessionIdBase
  work := .cleared
  ports := List.replicate nPorts .fresh
  out := none
  served := 0
  submitted := 0
  fsCalls := 0
  stream := stream

/-- The machine right after reset (R39, R380), from the reference configuration, with the ports of log entry 2 and the
free values of stream 0 (DESIGN CHOICE, log entry 19: which stream it is tells nothing of the values). -/
def State.reset : State := .fresh .reference Config.nPorts 0

end Sys2Proof.Machine
end

