-- ==== Sys2Proof/Machine/Operands.lean ====
section
/-! DEFINITION. Operands and values: fixed-length byte strings and their operators (R9 to R12), application-type codes
(R27), hexadecimal and decimal text (R62, R63, R14). -/

namespace Sys2Proof.Machine

/-- The byte string of a list of the right length (R9). -/
def ofList {n : Nat} (l : Bytes) (h : l.length = n) : B n := ⟨l.toArray, by simpa using h⟩

/-- `X[off..off+n)` (R10), read byte by byte. -/
def slice (x : Bytes) (off n : Nat) : B n :=
  ofList ((List.range n).map fun i => x.getD (off + i) 0) (by simp)

/-- The operand `x` as a `B[n]`; used where its length is known to be `n` (R66). -/
def fixed (n : Nat) (x : Bytes) : B n := slice x 0 n

/-- `X ⊕ Y` (R11). -/
def bxor {n : Nat} (x y : B n) : B n :=
  ofList (List.zipWith (fun a b => a ^^^ b) x.toList y.toList) (by simp)

/-- `X ‖ Y` (R11). -/
def bcat {m n : Nat} (x : B m) (y : B n) : B (m + n) := ofList (x.toList ++ y.toList) (by simp)

/-- `int(X)`: the string as an unsigned integer, most significant byte first (R12). -/
def intOf (x : Bytes) : Nat := x.foldl (fun acc b => acc * 256 + b.toNat) 0

/-- The binary code of an application type (R27). -/
def AppType.code : AppType → Byte
  | .other => 0x00
  | .usim => 0x01
  | .isim => 0x02

/-- The application type of a code; other codes name none (R27, R230). -/
def AppType.ofCode (c : Byte) : Option AppType :=
  match c.toNat with
  | 0x00 => some .other
  | 0x01 => some .usim
  | 0x02 => some .isim
  | _ => none

/-- The bytes of ASCII characters. -/
def ascii (cs : List Char) : Bytes := cs.map fun c => BitVec.ofNat 8 c.toNat

/-- The character of a nibble, uppercase (R62). -/
def hexDigit (n : Nat) : Byte := BitVec.ofNat 8 (if n < 10 then 0x30 + n else 0x41 + (n - 10))

/-- `hex(X)` (R62). -/
def hex (x : Bytes) : Bytes := x.flatMap fun b => [hexDigit (b.toNat / 16), hexDigit (b.toNat % 16)]

/-- The value of a hexadecimal character, in either case (R63). -/
def hexValue (c : Byte) : Option Nat :=
  let n := c.toNat
  if 0x30 ≤ n ∧ n ≤ 0x39 then some (n - 0x30)
  else if 0x41 ≤ n ∧ n ≤ 0x46 then some (n - 0x41 + 10)
  else if 0x61 ≤ n ∧ n ≤ 0x66 then some (n - 0x61 + 10)
  else none

/-- `unhex(T)`: defined for an even number of hexadecimal characters only (R63). -/
def unhex : Bytes → Option Bytes
  | [] => some []
  | [_] => none
  | hi :: lo :: rest => do
    let h ← hexValue hi
    let l ← hexValue lo
    let more ← unhex rest
    pure (BitVec.ofNat 8 (16 * h + l) :: more)

/-- The decimal digits of a number, most significant first; `fuel` bounds their count. -/
def decDigits : Nat → Nat → Bytes
  | 0, _ => []
  | fuel + 1, n =>
    if n < 10 then [BitVec.ofNat 8 (0x30 + n)]
    else decDigits fuel (n / 10) ++ [BitVec.ofNat 8 (0x30 + n % 10)]

/-- `dec(n)`: decimal text, no leading zeros (R14). -/
def dec (n : Nat) : Bytes := decDigits (n + 1) n

/-- The value of one to five decimal digits (R303). -/
def parseDec (t : Bytes) : Option Nat :=
  if 1 ≤ t.length ∧ t.length ≤ 5 ∧ t.all (fun c => 0x30 ≤ c.toNat && c.toNat ≤ 0x39) then
    some (t.foldl (fun acc c => acc * 10 + (c.toNat - 0x30)) 0)
  else none

end Sys2Proof.Machine
end

