-- ==== Sys2Proof/Machine/Flags.lean ====
section
/-! DEFINITION. What stands in for flags: the block has none (R34), and a command's outcome is carried in its response
only. Result codes and response frames (R95), status words (R106), and the outcomes of the units (R15, R191). -/

namespace Sys2Proof.Machine

/-- The errors of the block (R352). -/
inductive ErrorCode where
  | frame
  | channelLimit
  | unknownAid
  | notFound
  | invalidLength
  | cipherUnavailable
deriving DecidableEq, Repr

/-- The result code of an error (R95). -/
def ErrorCode.rc : ErrorCode → Byte
  | .frame => 0x01
  | .channelLimit => 0x02
  | .unknownAid => 0x03
  | .notFound => 0x04
  | .invalidLength => 0x05
  | .cipherUnavailable => 0x06

/-- A command's response: `DONE` with a payload, or an error without one (R95). -/
inductive Response where
  | done (payload : Bytes)
  | error (e : ErrorCode)
deriving DecidableEq, Repr

/-- The response frame `[rc] ‖ payload` (R95). -/
def Response.frame : Response → Bytes
  | .done payload => 0x00 :: payload
  | .error e => [e.rc]

/-- The status words of the card (R106). -/
inductive StatusWord where
  | unsupportedClass
  | unsupportedInstruction
  | incorrectParameters
  | wrongLength
  | applicationError
  | unknown
  | invalidMac
  | internalError
deriving DecidableEq, Repr

/-- The value of a status word (R106). -/
def StatusWord.value : StatusWord → U16
  | .unsupportedClass => 0x6E00
  | .unsupportedInstruction => 0x6D00
  | .incorrectParameters => 0x6A86
  | .wrongLength => 0x6700
  | .applicationError => 0x9862
  | .unknown => 0xFFFF
  | .invalidMac => 0x9862
  | .internalError => 0x6F00

/-- The two bytes of a status word (R61). -/
def StatusWord.bytes (sw : StatusWord) : Bytes := u16Bytes sw.value

/-- `CommandKind | StatusError`: what the classifier answers (R230). -/
inductive CommandKind where
  | gsmAuth
  | umtsAuth
  | statusError (sw : StatusWord)
deriving DecidableEq, Repr

/-- The protocol outcomes of Milenage (R191). `CipherUnavailable` is the absence of an outcome. -/
inductive MilenageOutcome where
  | ok (res : B 8) (ck ik : B 16)
  | syncFailure (auts : B 14)
  | invalidMac
deriving DecidableEq, Repr

/-- The payload of UMTS_AUTH (R96). -/
def MilenageOutcome.payload : MilenageOutcome → Bytes
  | .ok res ck ik => 0x00 :: (res.toList ++ ck.toList ++ ik.toList)
  | .syncFailure auts => 0x01 :: auts.toList
  | .invalidMac => [0x02]

/-- The card response of a UMTS-context APDU (R105, R244); none is `CipherUnavailable`. -/
def umtsCard : Option MilenageOutcome → Bytes
  | some (.ok res ck ik) => [0xDB, 0x08] ++ res.toList ++ [0x10] ++ ck.toList ++ [0x10] ++ ik.toList
  | some (.syncFailure auts) => [0xDC, 0x0E] ++ auts.toList
  | some .invalidMac => StatusWord.invalidMac.bytes
  | none => StatusWord.internalError.bytes

/-- The card response of a GSM-context APDU: `04 ‖ SRES ‖ 08 ‖ Kc` (R105, R243). -/
def gsmCard (out : B 12) : Bytes := 0x04 :: (out.toList.take 4 ++ 0x08 :: out.toList.drop 4)

end Sys2Proof.Machine
end

