-- ==== Sys2Proof/Machine/Ops.lean ====
section
/-! DEFINITION. The shared operations on the state: ending a command with its response, which is also how an error is
taken (R14, R37, R350), the session table (`44_session.md`), and the registry lookup (R271). -/

namespace Sys2Proof.Machine

/-- The command ends with response `r`: `WORK` is cleared first (R37), and the response frame is given out (R95). -/
def State.finish (r : Response) (s : State) : State := { s with work := .cleared, out := some r.frame }

/-- `respond DONE ‖ payload` (R14). -/
def State.respond (payload : Bytes) (s : State) : State := s.finish (.done payload)

/-- `raise E`: taking an error. The block has no trap entry (R356): the command ends with the error's response and
every other part of the state stays as it was before the command (R14, R350). -/
def State.raise (e : ErrorCode) (s : State) : State := s.finish (.error e)

/-- The command's working values are put into `WORK` (R35). -/
def State.withWork (w : Working) (s : State) : State := { s with work := w }

/-- `DONE ‖ LV2(R)`: an APDU's card response (R96, R105). -/
def State.cardRespond (card : Bytes) (s : State) : State := s.respond (lv2 card)

/-- A card response that is a status word (R106). -/
def State.cardStatus (sw : StatusWord) (s : State) : State := s.cardRespond sw.bytes

/-- The slots in index order (R30). -/
def SessionTable.slots (t : SessionTable) : List Slot := [t.slot0, t.slot1, t.slot2, t.slot3]

/-- The open sessions: the valid slots (R30). -/
def SessionTable.openSlots (t : SessionTable) : List Slot := t.slots.filter (·.valid)

/-- How many sessions are open (R270). -/
def SessionTable.openCount (t : SessionTable) : Nat := t.openSlots.length

/-- `INUSE(S)`: the ids of the open sessions (`44_session.md`). -/
def SessionTable.inUse (t : SessionTable) : List U16 := t.openSlots.map (·.id)

/-- The open session of an id, if there is one (R275); the lowest slot if a state not reachable had two. -/
def SessionTable.find (id : U16) (t : SessionTable) : Option Slot :=
  t.slots.find? fun k => k.valid && k.id == id

/-- A session goes into the lowest slot that is not valid (R273). -/
def SessionTable.put (k : Slot) (t : SessionTable) : SessionTable :=
  if !t.slot0.valid then { t with slot0 := k }
  else if !t.slot1.valid then { t with slot1 := k }
  else if !t.slot2.valid then { t with slot2 := k }
  else if !t.slot3.valid then { t with slot3 := k }
  else t

/-- `valid <- false`, the slot's other fields left as they are (R274). -/
def Slot.closed (k : Slot) : Slot := { k with valid := false }

/-- The slot of an open session of this id is made invalid; nothing where there is none (R274). -/
def SessionTable.close (id : U16) (t : SessionTable) : SessionTable :=
  if t.slot0.valid && t.slot0.id == id then { t with slot0 := t.slot0.closed }
  else if t.slot1.valid && t.slot1.id == id then { t with slot1 := t.slot1.closed }
  else if t.slot2.valid && t.slot2.id == id then { t with slot2 := t.slot2.closed }
  else if t.slot3.valid && t.slot3.id == id then { t with slot3 := t.slot3.closed }
  else t

/-- `succ(v)`: 65535 is followed by 257 (`44_session.md`, R272). -/
def succId (v : U16) : U16 := if v = Config.sessionIdMax then Config.sessionIdBase else v + 1

/-- The first of `id, succ(id), …` not in use; `fuel` bounds the candidates skipped (R272). -/
def allocId (used : List U16) : Nat → U16 → U16
  | 0, id => id
  | fuel + 1, id => if id ∈ used then allocId used fuel (succId id) else id

/-- The registry entry of an AID: equal length and equal bytes (R271). -/
def CardConfig.findAid (aid : Bytes) (cfg : CardConfig) : Option AidEntry := cfg.aids.find? fun e => e.aid == aid

/-- The id the next successful OPEN_CHANNEL gives out (R272). At most three ids are in use when an open succeeds, so
at most three candidates are skipped. -/
def State.candidateId (s : State) : U16 := allocId s.sess.inUse Config.maxLogicalChannels s.nextId

/-- The writes of a successful OPEN_CHANNEL: one slot and `NEXT_ID` (R270). -/
def State.openSession (e : AidEntry) (s : State) : State :=
  { s with
    sess := s.sess.put { valid := true, id := s.candidateId, aid := e.aid, type := e.type }
    nextId := succId s.candidateId }

/-- The write of CLOSE_CHANNEL: at most one slot's `valid` (R274). -/
def State.closeSession (id : U16) (s : State) : State := { s with sess := s.sess.close id }

/-- One call of the file-system collaborator is made (R313). -/
def State.countFileCall (s : State) : State := { s with fsCalls := s.fsCalls + 1 }

end Sys2Proof.Machine
end

