-- ==== Sys2Proof/Machine/FileAccess.lean ====
section
/-! DEFINITION. File access (`45_at_adapter.md` section 3): the file-system collaborator as a free draw (R313) and
FILE_ACCESS (R314). -/

namespace Sys2Proof.Machine

/-- `fileAccess(command)`: the collaborator's answer to the `n`-th call of the instance with stream `stream`, a free
draw of `(ok, response)` (R313). Two instances of different streams draw independently. DESIGN CHOICE, log entries 5 and
19. -/
def fileAnswer (stream n : Nat) (cmd : Bytes) : Bool × Bytes :=
  (Config.fileOk stream n cmd,
    (List.range (Config.fileLen stream n cmd).toNat).map (Config.fileByte stream n cmd))

/-- The payload of FILE_ACCESS: `u8 ok ‖ LV2 response` (R96). -/
def filePayload (answer : Bool × Bytes) : Bytes := (if answer.1 then 0x01 else 0x00) :: lv2 answer.2

/-- FILE_ACCESS (R314): the session must be open, then one call of the collaborator. -/
def execFileAccess (id : U16) (cmd : Bytes) (s : State) : Host.Outcome State Fault Refusal :=
  .next <|
    match s.sess.find id with
    | none => s.raise .notFound
    | some _ => s.countFileCall.respond (filePayload (fileAnswer s.stream s.fsCalls cmd))

end Sys2Proof.Machine
end

