-- ==== Sys2Proof/Machine/Classifier.lean ====
section
/-! DEFINITION. The APDU classifier (`43_classifier_router.md` section 1) and CLASSIFY (R230). -/

namespace Sys2Proof.Machine

/-- The GSM context is admitted on USIM and ISIM (R234). -/
def AppType.admitsGsm : AppType → Bool
  | .other => false
  | .usim => true
  | .isim => true

/-- The UMTS context is admitted on ISIM only (R235). -/
def AppType.admitsUmts : AppType → Bool
  | .other => false
  | .usim => false
  | .isim => true

/-- `CLASSIFY_FN`: rules R231 to R236 in order, the first that decides giving the result (R237). -/
def classifyFn (cla ins p1 p2 lc : Byte) (t : AppType) : CommandKind :=
  if cla ≠ 0x00 then .statusError .unsupportedClass
  else if ins ≠ 0x88 then .statusError .unsupportedInstruction
  else if p1 ≠ 0x00 then .statusError .incorrectParameters
  else if p2 = 0x80 then
    if lc ≠ 0x11 then .statusError .wrongLength
    else if t.admitsGsm then .gsmAuth
    else .statusError .applicationError
  else if p2 = 0x81 then
    if lc ≠ 0x22 then .statusError .wrongLength
    else if t.admitsUmts then .umtsAuth
    else .statusError .applicationError
  else .statusError .unknown

/-- The payload of CLASSIFY (R96). -/
def CommandKind.payload : CommandKind → Bytes
  | .gsmAuth => [0x01]
  | .umtsAuth => [0x02]
  | .statusError sw => 0x00 :: sw.bytes

/-- CLASSIFY (R230): the header's length first, then the application-type code, then the classifier. -/
def execClassify (hdr : Bytes) (apptype : Byte) (s : State) : Host.Outcome State Fault Refusal :=
  .next <|
    match hdr with
    | [cla, ins, p1, p2, lc] =>
      match AppType.ofCode apptype with
      | none => s.raise .frame
      | some t => s.respond (classifyFn cla ins p1 p2 lc t).payload
    | _ => s.raise .invalidLength

end Sys2Proof.Machine
end

