-- ==== Sys2Proof/Machine/Comp128.lean ====
section
/-! DEFINITION. The GSM unit (`41_comp128.md`): GSM_AUTH over the OPEN function `COMP128V1` (R170, R172), and the
structure of the published algorithm over OPEN tables (R176 to R179). -/

namespace Sys2Proof.Machine

/-- The index pairs `(m, n)` of level `j` (R177). -/
def levelPairs (j : Nat) : List (Nat × Nat) :=
  (List.range (2 ^ j)).flatMap fun k =>
    (List.range (2 ^ (4 - j))).map fun l => (l + k * 2 ^ (5 - j), l + k * 2 ^ (5 - j) + 2 ^ (4 - j))

/-- One step of the compression: `x[m]` and `x[n]` through table `Tj`, both read before either is written (R177). -/
def butterfly (tables : Config.Tables) (j : Nat) (x : List Nat) (mn : Nat × Nat) : List Nat :=
  let xm := x.getD mn.1 0
  let xn := x.getD mn.2 0
  (x.set mn.1 (tables j (BitVec.ofNat (9 - j) (xm + 2 * xn))).toNat).set mn.2
    (tables j (BitVec.ofNat (9 - j) (2 * xm + xn))).toNat

/-- One level of the compression (R177). -/
def compressLevel (tables : Config.Tables) (x : List Nat) (j : Nat) : List Nat :=
  (levelPairs j).foldl (butterfly tables j) x

/-- The compression: levels 0 to 4 (R177). -/
def compress (tables : Config.Tables) (x : List Nat) : List Nat := (List.range 5).foldl (compressLevel tables) x

/-- Bit formation: `bit[4i + k] <- (x[i] >> (3 - k)) & 1` (R178). -/
def formBits (x : List Nat) : List Bool := (List.range 128).map fun b => (x.getD (b / 4) 0).testBit (3 - b % 4)

/-- The permutation: the new `x[16 + i]` for `i = 0..15` (R179). -/
def permute (bits : List Bool) : List Nat :=
  (List.range 16).map fun i =>
    ((List.range 8).map fun k => (bits.getD (((8 * i + k) * 17) % 128) false).toNat <<< (7 - k)).sum

/-- A pass: `x[0..15] <- Ki`, then the compression (R176). -/
def comp128Pass (tables : Config.Tables) (ki : B 16) (x : List Nat) : List Nat :=
  compress tables (ki.toList.map (·.toNat) ++ x.drop 16)

/-- The array `x` after `n` passes that are followed by the permutation (R176, R179). -/
def comp128Loop (tables : Config.Tables) (ki : B 16) : Nat → List Nat → List Nat
  | 0, x => x
  | n + 1, x =>
    let y := comp128Pass tables ki x
    comp128Loop tables ki n (y.take 16 ++ permute (formBits y))

/-- The array `x` after pass 8: seven passes with the permutation, and one without (R176, R179). -/
def comp128Array (tables : Config.Tables) (ki rand : B 16) : List Nat :=
  comp128Pass tables ki (comp128Loop tables ki 7 (List.replicate 16 0 ++ rand.toList.map (·.toNat)))

/-- Byte `i` of the output, from the array after pass 8 (R178). -/
def comp128Byte (x : List Nat) (i : Nat) : Byte :=
  if i < 4 then BitVec.ofNat 8 (x.getD (2 * i) 0 <<< 4 ||| x.getD (2 * i + 1) 0)
  else if i < 10 then
    BitVec.ofNat 8
      (x.getD (2 * (i - 4) + 18) 0 <<< 6 ||| x.getD (2 * (i - 4) + 19) 0 <<< 2 ||| x.getD (2 * (i - 4) + 20) 0 >>> 2)
  else if i = 10 then BitVec.ofNat 8 (x.getD 30 0 <<< 6 ||| x.getD 31 0 <<< 2)
  else 0

/-- The 12 output bytes of the published structure over given tables (R178). It is what an instantiation of
`COMP128V1` computes (R172); the block itself runs the OPEN `Config.comp128v1`. -/
def comp128 (tables : Config.Tables) (ki rand : B 16) : B 12 :=
  ofList ((List.range 12).map (comp128Byte (comp128Array tables ki rand))) (by simp)

/-- `WORK` during a GSM authentication: the arrays `x` and `bit` of the published structure (R35; log entry 4). -/
def gsmWork (ki rand : B 16) : Working :=
  let x := comp128Array Config.comp128Tables ki rand
  { Working.cleared with x := x, bit := formBits x }

/-- GSM_AUTH (R170): the width of both operands, then `SRES ‖ Kc`. -/
def execGsmAuth (ki rand : Bytes) (s : State) : Host.Outcome State Fault Refusal :=
  .next <|
    if ki.length ≠ 16 ∨ rand.length ≠ 16 then s.raise .invalidLength
    else
      (s.withWork (gsmWork (fixed 16 ki) (fixed 16 rand))).respond
        (Config.comp128v1 (fixed 16 ki) (fixed 16 rand)).toList

end Sys2Proof.Machine
end

