-- ==== Sys2Proof/Machine/Aes.lean ====
section
/-! DEFINITION. The AES unit (`40_aes.md`): the block function of FIPS-197 as R143 to R151 give it, the invocation
AESCALL (R141), and AES_ENCRYPT (R140). -/

namespace Sys2Proof.Machine

/-- Row `r` (the high nibble) of the S-box (R147). -/
def sboxRow (r : Nat) : Bytes :=
  match r with
  | 0x0 => [0x63, 0x7C, 0x77, 0x7B, 0xF2, 0x6B, 0x6F, 0xC5, 0x30, 0x01, 0x67, 0x2B, 0xFE, 0xD7, 0xAB, 0x76]
  | 0x1 => [0xCA, 0x82, 0xC9, 0x7D, 0xFA, 0x59, 0x47, 0xF0, 0xAD, 0xD4, 0xA2, 0xAF, 0x9C, 0xA4, 0x72, 0xC0]
  | 0x2 => [0xB7, 0xFD, 0x93, 0x26, 0x36, 0x3F, 0xF7, 0xCC, 0x34, 0xA5, 0xE5, 0xF1, 0x71, 0xD8, 0x31, 0x15]
  | 0x3 => [0x04, 0xC7, 0x23, 0xC3, 0x18, 0x96, 0x05, 0x9A, 0x07, 0x12, 0x80, 0xE2, 0xEB, 0x27, 0xB2, 0x75]
  | 0x4 => [0x09, 0x83, 0x2C, 0x1A, 0x1B, 0x6E, 0x5A, 0xA0, 0x52, 0x3B, 0xD6, 0xB3, 0x29, 0xE3, 0x2F, 0x84]
  | 0x5 => [0x53, 0xD1, 0x00, 0xED, 0x20, 0xFC, 0xB1, 0x5B, 0x6A, 0xCB, 0xBE, 0x39, 0x4A, 0x4C, 0x58, 0xCF]
  | 0x6 => [0xD0, 0xEF, 0xAA, 0xFB, 0x43, 0x4D, 0x33, 0x85, 0x45, 0xF9, 0x02, 0x7F, 0x50, 0x3C, 0x9F, 0xA8]
  | 0x7 => [0x51, 0xA3, 0x40, 0x8F, 0x92, 0x9D, 0x38, 0xF5, 0xBC, 0xB6, 0xDA, 0x21, 0x10, 0xFF, 0xF3, 0xD2]
  | 0x8 => [0xCD, 0x0C, 0x13, 0xEC, 0x5F, 0x97, 0x44, 0x17, 0xC4, 0xA7, 0x7E, 0x3D, 0x64, 0x5D, 0x19, 0x73]
  | 0x9 => [0x60, 0x81, 0x4F, 0xDC, 0x22, 0x2A, 0x90, 0x88, 0x46, 0xEE, 0xB8, 0x14, 0xDE, 0x5E, 0x0B, 0xDB]
  | 0xA => [0xE0, 0x32, 0x3A, 0x0A, 0x49, 0x06, 0x24, 0x5C, 0xC2, 0xD3, 0xAC, 0x62, 0x91, 0x95, 0xE4, 0x79]
  | 0xB => [0xE7, 0xC8, 0x37, 0x6D, 0x8D, 0xD5, 0x4E, 0xA9, 0x6C, 0x56, 0xF4, 0xEA, 0x65, 0x7A, 0xAE, 0x08]
  | 0xC => [0xBA, 0x78, 0x25, 0x2E, 0x1C, 0xA6, 0xB4, 0xC6, 0xE8, 0xDD, 0x74, 0x1F, 0x4B, 0xBD, 0x8B, 0x8A]
  | 0xD => [0x70, 0x3E, 0xB5, 0x66, 0x48, 0x03, 0xF6, 0x0E, 0x61, 0x35, 0x57, 0xB9, 0x86, 0xC1, 0x1D, 0x9E]
  | 0xE => [0xE1, 0xF8, 0x98, 0x11, 0x69, 0xD9, 0x8E, 0x94, 0x9B, 0x1E, 0x87, 0xE9, 0xCE, 0x55, 0x28, 0xDF]
  | _ => [0x8C, 0xA1, 0x89, 0x0D, 0xBF, 0xE6, 0x42, 0x68, 0x41, 0x99, 0x2D, 0x0F, 0xB0, 0x54, 0xBB, 0x16]

/-- `SBOX[a]` (R147). -/
def sbox (a : Byte) : Byte := (sboxRow (a.toNat / 16)).getD (a.toNat % 16) 0

/-- `xtime(a)`: multiplication by `0x02` in GF(2^8) (R145). -/
def xtime (a : Byte) : Byte := (a <<< 1) ^^^ (if 0x80 ≤ a.toNat then 0x1B else 0x00)

/-- `0x03 • a` (R149). -/
def times3 (a : Byte) : Byte := xtime a ^^^ a

/-- `a • b` over the low `n` bits of `b`: the xor of `xtime^k(a)` over the bits `k` set in `b` (R145). -/
def gfMulBits : Nat → Byte → Byte → Byte
  | 0, _, _ => 0
  | n + 1, a, b => (if b.toNat % 2 = 1 then a else 0) ^^^ gfMulBits n (xtime a) (b >>> 1)

/-- `a • b` in GF(2^8) with reduction polynomial 0x11B (R145). -/
def gfMul (a b : Byte) : Byte := gfMulBits 8 a b

/-- `inv(a)`: 0 for 0, and otherwise the `b` with `a • b = 0x01`, which in a field of 256 elements is `a^254` (R145). -/
def gfInv (a : Byte) : Byte :=
  let a2 := gfMul a a
  let a4 := gfMul a2 a2
  let a8 := gfMul a4 a4
  let a16 := gfMul a8 a8
  let a32 := gfMul a16 a16
  let a64 := gfMul a32 a32
  let a128 := gfMul a64 a64
  gfMul a128 (gfMul a64 (gfMul a32 (gfMul a16 (gfMul a8 (gfMul a4 a2)))))

/-- The affine map of SubBytes with `c = 0x63` (R146). -/
def affine (b : Byte) : Byte :=
  b ^^^ b.rotateRight 4 ^^^ b.rotateRight 5 ^^^ b.rotateRight 6 ^^^ b.rotateRight 7 ^^^ 0x63

/-- `s[r][c]` of a state in block order: `X[r + 4c]` (R143). -/
def at4 (s : B 16) (r c : Nat) : Byte := s.toList.getD (r + 4 * c) 0

/-- SubBytes (R146). -/
def subBytes (s : B 16) : B 16 := ofList (s.toList.map sbox) (by simp)

/-- ShiftRows: `s'[r][c] = s[r][(c + r) mod 4]` (R148). -/
def shiftRows (s : B 16) : B 16 :=
  ofList ((List.range 16).map fun i => at4 s (i % 4) ((i / 4 + i % 4) % 4)) (by simp)

/-- One column of MixColumns (R149). -/
def mixColumn (a0 a1 a2 a3 : Byte) : Bytes :=
  [xtime a0 ^^^ times3 a1 ^^^ a2 ^^^ a3, a0 ^^^ xtime a1 ^^^ times3 a2 ^^^ a3,
    a0 ^^^ a1 ^^^ xtime a2 ^^^ times3 a3, times3 a0 ^^^ a1 ^^^ a2 ^^^ xtime a3]

/-- MixColumns: each column independently (R149). -/
def mixColumns (s : B 16) : B 16 :=
  ofList ((List.range 4).flatMap fun c => mixColumn (at4 s 0 c) (at4 s 1 c) (at4 s 2 c) (at4 s 3 c)) (by rfl)

/-- `Rcon[j] = xtime^(j-1)(0x01)`, in the first byte of a word (R150). -/
def rcon : Nat → Byte
  | 0 => 0
  | 1 => 1
  | j + 2 => xtime (rcon (j + 1))

/-- RotWord: `[t0,t1,t2,t3] -> [t1,t2,t3,t0]` (R150). -/
def rotWord (t : B 4) : B 4 := ofList (t.toList.drop 1 ++ t.toList.take 1) (by simp)

/-- SubWord: the S-box on each of the four bytes (R150). -/
def subWord (t : B 4) : B 4 := ofList (t.toList.map sbox) (by simp)

/-- `t[0] <- t[0] xor Rcon[j]` (R150). -/
def addRcon (j : Nat) (t : B 4) : B 4 := bxor t (ofList [rcon j, 0, 0, 0] rfl)

/-- Word `i` of the expansion, from the words before it (R150). -/
def nextWord (ws : List (B 4)) (i : Nat) : B 4 :=
  let t := ws.getD (i - 1) (Vector.replicate 4 0)
  let t := if i % 4 = 0 then addRcon (i / 4) (subWord (rotWord t)) else t
  bxor (ws.getD (i - 4) (Vector.replicate 4 0)) t

/-- The words after the first four, `n` of them, appended one by one from word `i` on (R150). -/
def expandFrom : Nat → Nat → List (B 4) → List (B 4)
  | 0, _, ws => ws
  | n + 1, i, ws => expandFrom n (i + 1) (ws ++ [nextWord ws i])

/-- KeyExpansion: the 44 words `w[0..43]` (R150), computed anew for every key it is given (R36). -/
def keyExpansion (k : B 16) : List (B 4) :=
  expandFrom 40 4 [slice k.toList 0 4, slice k.toList 4 4, slice k.toList 8 4, slice k.toList 12 4]

/-- Round key `r`: `w[4r] ‖ w[4r+1] ‖ w[4r+2] ‖ w[4r+3]` (R150). -/
def roundKey (ws : List (B 4)) (r : Nat) : B 16 :=
  bcat (bcat (ws.getD (4 * r) (Vector.replicate 4 0)) (ws.getD (4 * r + 1) (Vector.replicate 4 0)))
    (bcat (ws.getD (4 * r + 2) (Vector.replicate 4 0)) (ws.getD (4 * r + 3) (Vector.replicate 4 0)))

/-- AddRoundKey: round key `r` is xored into the state column by column, which in block order is one xor (R151). -/
def addRoundKey (ws : List (B 4)) (r : Nat) (s : B 16) : B 16 := bxor s (roundKey ws r)

/-- Rounds `r, r+1, …`, `n` of them, each with MixColumns (R144). -/
def aesRounds (ws : List (B 4)) : Nat → Nat → B 16 → B 16
  | 0, _, s => s
  | n + 1, r, s => aesRounds ws n (r + 1) (addRoundKey ws r (mixColumns (shiftRows (subBytes s))))

/-- `AES(K, X)` (R144). -/
def aes (k x : B 16) : B 16 :=
  let ws := keyExpansion k
  addRoundKey ws 10 (shiftRows (subBytes (aesRounds ws 9 1 (addRoundKey ws 0 x))))

/-- `AESCALL(K, X)`; none is `CipherUnavailable` (R141). -/
def aesCall (available : Bool) (k x : B 16) : Option (B 16) := if available then some (aes k x) else none

/-- `WORK` during AES_ENCRYPT: the expanded key and the AES state (R35). -/
def aesWork (k y : B 16) : Working := { Working.cleared with keySchedule := keyExpansion k, aesState := y }

/-- AES_ENCRYPT (R140): the width of both operands first, then the cipher. -/
def execAesEncrypt (key pt : Bytes) (s : State) : Host.Outcome State Fault Refusal :=
  .next <|
    if key.length ≠ 16 ∨ pt.length ≠ 16 then s.raise .invalidLength
    else
      match aesCall s.cfg.cipherAvailable (fixed 16 key) (fixed 16 pt) with
      | none => s.raise .cipherUnavailable
      | some y =>
        let running := s.withWork (aesWork (fixed 16 key) y)
        running.respond running.work.aesState.toList

end Sys2Proof.Machine
end

