-- ==== Sys2Proof/Machine/Milenage.lean ====
section
/-! DEFINITION. The UMTS unit (`42_milenage.md`): Milenage with its working values, and UMTS_AUTH (R190). -/

namespace Sys2Proof.Machine

/-- `PLACE(X, k)[(i + k) mod 16] = X[i]` for `k` in 0..15 (R192): byte `j` of the result is `X[(j - k) mod 16]`. -/
def place (x : B 16) (k : Nat) : B 16 :=
  ofList ((List.range 16).map fun j => x.toList.getD ((j + 16 - k) % 16) 0) (by simp)

/-- `CONST(v)`: fifteen zero bytes, then `v` (R192). -/
def constByte (v : Byte) : B 16 := ofList (List.replicate 15 0 ++ [v]) (by simp)

/-- `S ‖ A ‖ S ‖ A`, the shape of `IN1` and `IN1*` (R196, R198). -/
def in1Of (sqn : B 6) (amf : B 2) : B 16 := bcat (bcat sqn amf) (bcat sqn amf)

/-- `E(X)`: an invocation of the AES unit with the key `Ki`, leaving the AES state and the expanded key in `WORK`
(R192, R35). None is `CipherUnavailable`, which ends MILENAGE at once (R205). -/
def cipherStep (available : Bool) (ki x : B 16) (w : Working) : Option Working :=
  (aesCall available ki x).map fun y => { w with aesState := y, keySchedule := keyExpansion ki }

/-- Steps 1 to 4: TEMP, OUT2, AK, the recovered SQN, IN1, OUT1 and MAC-A (R193 to R196). -/
def milenageStart (available : Bool) (ki opc rand autn : B 16) : Option Working := do
  let w ← cipherStep available ki (bxor rand opc) .cleared
  let w := { w with temp := w.aesState }
  let w ← cipherStep available ki (bxor (bxor w.temp opc) (constByte 0x01)) w
  let out2 := bxor w.aesState opc
  let ak : B 6 := slice out2.toList 0 6
  let sqn : B 6 := bxor (slice autn.toList 0 6) ak
  let w := { w with out2 := out2, ak := ak, sqn := sqn, in1 := in1Of sqn (slice autn.toList 6 2) }
  let w ← cipherStep available ki (bxor w.temp (place (bxor w.in1 opc) 8)) w
  let out1 := bxor w.aesState opc
  pure { w with out1 := out1, macA := slice out1.toList 0 8 }

/-- The SYNC_FAILURE branch: f5* and f1* over the stored SQN with AMF zero (R198). That `OUT5` holds the f5* block is
PRESUMED (log entry 20). -/
def milenageSync (available : Bool) (ki opc : B 16) (sqnStored : B 6) (w : Working) :
    Option (Working × MilenageOutcome) := do
  let w ← cipherStep available ki (bxor (place (bxor w.temp opc) 4) (constByte 0x08)) w
  let out5 := bxor w.aesState opc
  let w := { w with out5 := out5, akStar := slice out5.toList 0 6, in1Star := in1Of sqnStored (Vector.replicate 2 0) }
  let w ← cipherStep available ki (bxor w.temp (place (bxor w.in1Star opc) 8)) w
  let out1Star := bxor w.aesState opc
  let w := { w with out1Star := out1Star, macS := slice out1Star.toList 8 8 }
  pure (w, .syncFailure (bcat (bxor sqnStored w.akStar) w.macS))

/-- The OK branch: f3 and f4, with RES the second half of OUT2 (R194, R200). That `OUT3` and `OUT4` hold the f3 and f4
outputs is PRESUMED (log entry 20). -/
def milenageOk (available : Bool) (ki opc : B 16) (w : Working) : Option (Working × MilenageOutcome) := do
  let w ← cipherStep available ki (bxor (place (bxor w.temp opc) 12) (constByte 0x02)) w
  let w := { w with out3 := bxor w.aesState opc }
  let w ← cipherStep available ki (bxor (place (bxor w.temp opc) 8) (constByte 0x04)) w
  let w := { w with out4 := bxor w.aesState opc }
  pure (w, .ok (slice w.out2.toList 8 8) w.out3 w.out4)

/-- MILENAGE (R191): steps 1 to 4, then the decision of R197, the SQN first. The working values come with the
outcome; none is `CipherUnavailable`. -/
def milenage (available : Bool) (ki opc : B 16) (sqnStored : B 6) (rand autn : B 16) :
    Option (Working × MilenageOutcome) := do
  let w ← milenageStart available ki opc rand autn
  if w.sqn ≠ sqnStored then milenageSync available ki opc sqnStored w
  else if w.macA ≠ slice autn.toList 8 8 then pure (w, .invalidMac)
  else milenageOk available ki opc w

/-- UMTS_AUTH (R190): the widths of all five operands first, then the outcome of Milenage. -/
def execUmtsAuth (ki opc sqn rand autn : Bytes) (s : State) : Host.Outcome State Fault Refusal :=
  .next <|
    if ki.length ≠ 16 ∨ opc.length ≠ 16 ∨ sqn.length ≠ 6 ∨ rand.length ≠ 16 ∨ autn.length ≠ 16 then
      s.raise .invalidLength
    else
      match milenage s.cfg.cipherAvailable (fixed 16 ki) (fixed 16 opc) (fixed 6 sqn) (fixed 16 rand)
          (fixed 16 autn) with
      | none => s.raise .cipherUnavailable
      | some (w, outcome) => (s.withWork w).respond outcome.payload

end Sys2Proof.Machine
end

