-- ==== Sys2Proof/Machine/Router.lean ====
section
/-! DEFINITION. The router (`43_classifier_router.md` section 2): the body checks, the GSM and UMTS paths, APDU_EXEC
and the two AUTHENTICATE commands. -/

namespace Sys2Proof.Machine

/-- The length byte of RAND and of AUTN in the data field (R102). -/
def lengthByte : Byte := 0x10

/-- `DATA`: the body has `Lc` bytes, or `Lc + 1` with a trailing `Le` that is ignored; other lengths have none
(R101, R241). -/
def apduData (lc : Nat) (body : Bytes) : Option Bytes :=
  if body.length = lc ∨ body.length = lc + 1 then some (body.take lc) else none

/-- The GSM path on a body, after classification: the body checks (R241), then `COMP128V1(CFG.Ki, RAND)` (R243). -/
def State.gsmPath (body : Bytes) (s : State) : State :=
  match apduData 0x11 body with
  | none => s.cardStatus .wrongLength
  | some data =>
    if data.getD 0 0 ≠ lengthByte then s.cardStatus .wrongLength
    else
      let rand : B 16 := slice data 1 16
      (s.withWork (gsmWork s.cfg.ki rand)).cardRespond (gsmCard (Config.comp128v1 s.cfg.ki rand))

/-- The UMTS path on a body, after classification: the body checks (R241), then Milenage over the instance's key
material and its card response (R244). -/
def State.umtsPath (body : Bytes) (s : State) : State :=
  match apduData 0x22 body with
  | none => s.cardStatus .wrongLength
  | some data =>
    if data.getD 0 0 ≠ lengthByte ∨ data.getD 17 0 ≠ lengthByte then s.cardStatus .wrongLength
    else
      match milenage s.cfg.cipherAvailable s.cfg.ki s.cfg.opc s.cfg.sqn (slice data 1 16) (slice data 18 16) with
      | none => s.cardRespond (umtsCard none)
      | some (w, outcome) => (s.withWork w).cardRespond (umtsCard (some outcome))

/-- An APDU on an open session, in the order of R242: at least five bytes, the classifier, the body. Each kind has one
handler (R245). -/
def State.routeApdu (t : AppType) (apdu : Bytes) (s : State) : State :=
  match apdu with
  | cla :: ins :: p1 :: p2 :: lc :: body =>
    match classifyFn cla ins p1 p2 lc t with
    | .statusError sw => s.cardStatus sw
    | .gsmAuth => s.gsmPath body
    | .umtsAuth => s.umtsPath body
  | _ => s.cardStatus .wrongLength

/-- APDU_EXEC (R240), for every APDU. -/
def execApduExec (id : U16) (apdu : Bytes) (s : State) : Host.Outcome State Fault Refusal :=
  .next <|
    match s.sess.find id with
    | none => s.raise .notFound
    | some k => s.routeApdu k.type apdu

/-- AUTHENTICATE in GSM context (R104, R234, R241, R243): the session, its application type, the body, the GSM unit. -/
def execAuthenticateGsm (id : U16) (body : Bytes) (s : State) : Host.Outcome State Fault Refusal :=
  .next <|
    match s.sess.find id with
    | none => s.raise .notFound
    | some k => if k.type.admitsGsm then s.gsmPath body else s.cardStatus .applicationError

/-- AUTHENTICATE in UMTS context (R104, R235, R241, R244): the session, its application type, the body, the UMTS
unit. -/
def execAuthenticateUmts (id : U16) (body : Bytes) (s : State) : Host.Outcome State Fault Refusal :=
  .next <|
    match s.sess.find id with
    | none => s.raise .notFound
    | some k => if k.type.admitsUmts then s.umtsPath body else s.cardStatus .applicationError

end Sys2Proof.Machine
end

