-- ==== Sys2Proof/Machine/Session.lean ====
section
/-! DEFINITION. The session commands (`44_session.md` section 1): LIST_AIDS, OPEN_CHANNEL, CLOSE_CHANNEL, LOOKUP. -/

namespace Sys2Proof.Machine

/-- `LV1 aid ‖ u8 type` (R96). -/
def aidAndType (aid : Bytes) (t : AppType) : Bytes := lv1 aid ++ [t.code]

/-- The payload of LIST_AIDS: the count, then each entry in configuration order (R276). -/
def CardConfig.listing (cfg : CardConfig) : Bytes :=
  BitVec.ofNat 8 cfg.aids.length :: cfg.aids.flatMap fun e => aidAndType e.aid e.type

/-- LIST_AIDS (R276). -/
def execListAids (s : State) : Host.Outcome State Fault Refusal := .next (s.respond s.cfg.listing)

/-- OPEN_CHANNEL (R270): the channel limit first, then the registry. -/
def execOpenChannel (aid : Bytes) (s : State) : Host.Outcome State Fault Refusal :=
  .next <|
    if Config.maxLogicalChannels ≤ s.sess.openCount then s.raise .channelLimit
    else
      match s.cfg.findAid aid with
      | none => s.raise .unknownAid
      | some e => (s.openSession e).respond (u16Bytes s.candidateId)

/-- CLOSE_CHANNEL (R274): never an error. -/
def execCloseChannel (id : U16) (s : State) : Host.Outcome State Fault Refusal :=
  .next ((s.closeSession id).respond [])

/-- LOOKUP (R275). -/
def execLookup (id : U16) (s : State) : Host.Outcome State Fault Refusal :=
  .next <|
    match s.sess.find id with
    | none => s.raise .notFound
    | some k => s.respond (aidAndType k.aid k.type)

end Sys2Proof.Machine
end

