-- ==== Sys2Proof/Machine/Dispatch.lean ====
section
/-! DEFINITION. One arm per command: its meaning. -/

namespace Sys2Proof.Machine

def exec (i : Instr) (s : State) : Host.Outcome State Fault Refusal :=
  match i with
  | .listAids => Sys2Proof.Machine.execListAids s
  | .openChannel aid => Sys2Proof.Machine.execOpenChannel aid s
  | .closeChannel id => Sys2Proof.Machine.execCloseChannel id s
  | .lookup id => Sys2Proof.Machine.execLookup id s
  | .apduExec id apdu => Sys2Proof.Machine.execApduExec id apdu s
  | .fileAccess id cmd => Sys2Proof.Machine.execFileAccess id cmd s
  | .aesEncrypt key pt => Sys2Proof.Machine.execAesEncrypt key pt s
  | .gsmAuth ki rand => Sys2Proof.Machine.execGsmAuth ki rand s
  | .umtsAuth ki opc sqn rand autn => Sys2Proof.Machine.execUmtsAuth ki opc sqn rand autn s
  | .classify hdr apptype => Sys2Proof.Machine.execClassify hdr apptype s
  | .authenticateGsm id body => Sys2Proof.Machine.execAuthenticateGsm id body s
  | .authenticateUmts id body => Sys2Proof.Machine.execAuthenticateUmts id body s

end Sys2Proof.Machine
end

