-- ==== Sys2Proof/Machine/Arbiter.lean ====
section
/-! DEFINITION. The arbiter (`44_session.md` section 3): submitting a frame on a port, choosing the port to serve,
running its frame, delivering the response (R290, R291, R391). -/

namespace Sys2Proof.Machine

/-- A pending command: its port, its frame, and the service count after which no later command overtakes it. -/
structure Selected where
  port : Nat
  frame : Bytes
  due : Nat
deriving DecidableEq, Repr

/-- Of two pending commands the one with the lesser `due`; on a tie the first. -/
def Selected.sooner (c : Selected) : Option Selected → Selected
  | none => c
  | some later => if later.due < c.due then later else c

/-- The pending command to serve among ports numbered from `n`: the least `due`, and of equal ones the lowest port.
Every submission draws its `due` freely (`State.submit`), so any pending port can be the one chosen (R290), and a port
that stays pending is served eventually, since every later command's `due` is at least the service count at its
submission (R290, weakly fair). Log entry 3. -/
def selectPort (n : Nat) : List Port → Option Selected
  | [] => none
  | p :: rest =>
    match p.status with
    | .idle => selectPort (n + 1) rest
    | .pending frame due => some (Selected.sooner ⟨n, frame, due⟩ (selectPort (n + 1) rest))

/-- A frame executes: the command it decodes to, or `ERR_FRAME` where it is not well formed (R91). -/
def runFrame (frame : Bytes) (s : State) : Host.Outcome State Fault Refusal :=
  match decode frame with
  | .ok i => exec i s
  | .error _ => .next (s.raise .frame)

/-- The response is delivered on port `p`, which becomes `Idle` (R290). -/
def State.deliver (p : Nat) (s : State) : State :=
  { s with ports := s.ports.set p ⟨.idle, s.out⟩, out := none, served := s.served + 1 }

/-- An executed command's outcome with its response delivered. -/
def deliverOutcome (p : Nat) : Host.Outcome State Fault Refusal → Host.Outcome State Fault Refusal
  | .next s => .next (s.deliver p)
  | .fault f => .fault f
  | .refused r => .refused r

/-- An arbiter step: one pending command is executed as one atomic step and answered (R290, R69). With no command
pending the block waits, its state unchanged (R374, R384). -/
def serve (s : State) : Host.Outcome State Fault Refusal :=
  match selectPort 0 s.ports with
  | none => .next s
  | some c => deliverOutcome c.port (runFrame c.frame s)

/-- A host submits a frame on port `p`; it is accepted only on an `Idle` port (R290, R391). Its `due` is drawn from the
instance's own stream: two instances of different streams with the same events may be served in different orders.
DESIGN CHOICE, log entries 3 and 19. -/
def State.submit (p : Nat) (frame : Bytes) (s : State) : Option State :=
  match s.ports[p]? with
  | some ⟨.idle, _⟩ =>
    some { s with
      ports := s.ports.set p ⟨.pending frame (s.served + Config.patience s.stream s.submitted), none⟩
      submitted := s.submitted + 1 }
  | _ => none

/-- A frame stands pending on port 0 ahead of every other command. -/
def State.presentFirst (frame : Bytes) (s : State) : State :=
  { s with ports := ⟨.pending frame 0, none⟩ :: s.ports.drop 1 }

end Sys2Proof.Machine
end

