-- ==== Sys2Proof/Machine/Step.lean ====
section
/-! DEFINITION. One step of the machine, and the host's way of placing an instruction where the step takes its next. -/

namespace Sys2Proof.Machine

/-- One step: the arbiter serves one pending command, or waits. -/
def step (s : State) : Host.Outcome State Fault Refusal := serve s

/-- `s` with the frame of a table word pending on port 0, so that the very next step runs it. It stands for a host's
submission; the block fetches nothing (R21). Log entry 9. -/
def State.withFetchWord (s : State) (nbits w : Nat) : State := s.presentFirst (tableFrame nbits w)

end Sys2Proof.Machine
end

