-- ==== Sys2Proof/Machine/Reset.lean ====
section
/-! DEFINITION. The configuration record and reset (`70_reset_and_hazards.md` sections 1 and 2). -/

namespace Sys2Proof.Machine

/-- A configuration record given as bytes (R381). Widths are not in the types: a record of wrong widths is refused. -/
structure ConfigRecord where
  ki : Bytes
  opc : Bytes
  sqn : Bytes
  aids : List AidEntry
  cipherAvailable : Bool
deriving DecidableEq, Repr

/-- The conditions on a registry: AIDs of 1 to 16 bytes, no two equal, at most 255 entries (R26, R381). -/
def validAids (aids : List AidEntry) : Bool :=
  aids.all (fun e => Config.aidMinBytes ≤ e.aid.length && e.aid.length ≤ Config.aidMaxBytes) &&
    decide (aids.map (·.aid)).Nodup && aids.length ≤ Config.maxAids

/-- The record is valid: exact widths and a valid registry (R381). -/
def ConfigRecord.valid (c : ConfigRecord) : Bool :=
  c.ki.length == 16 && c.opc.length == 16 && c.sqn.length == 6 && validAids c.aids

/-- The configuration registers of a valid record; a record that is not valid is never loaded, padded or truncated
(R382). -/
def ConfigRecord.load (c : ConfigRecord) : Option CardConfig :=
  if c.valid then some ⟨fixed 16 c.ki, fixed 16 c.opc, fixed 6 c.sqn, c.aids, c.cipherAvailable⟩ else none

/-- A configuration record in text form (R381). -/
structure ConfigText where
  ki : Bytes
  opc : Bytes
  sqn : Bytes
  aids : List (Bytes × Bytes)
  cipherAvailable : Bool
deriving DecidableEq, Repr

/-- The application type a record's text names (R27, R381). -/
def AppType.ofText (t : Bytes) : Option AppType :=
  if t = ascii ['O', 'T', 'H', 'E', 'R'] then some .other
  else if t = ascii ['U', 'S', 'I', 'M'] then some .usim
  else if t = ascii ['I', 'S', 'I', 'M'] then some .isim
  else none

/-- The registry entries of a text record (R381). -/
def parseAids : List (Bytes × Bytes) → Option (List AidEntry)
  | [] => some []
  | (aidHex, typeText) :: rest => do
    let aid ← unhex aidHex
    let type ← AppType.ofText typeText
    let more ← parseAids rest
    pure (⟨aid, type⟩ :: more)

/-- The record a text record stands for; `ConfigRecord.valid` then checks its widths, so a 128-bit field is exactly 32
hexadecimal characters and the SQN exactly 12 (R381). -/
def ConfigText.parse (c : ConfigText) : Option ConfigRecord := do
  let ki ← unhex c.ki
  let opc ← unhex c.opc
  let sqn ← unhex c.sqn
  let aids ← parseAids c.aids
  pure ⟨ki, opc, sqn, aids, c.cipherAvailable⟩

/-- The first reset of an instance of `nPorts` ports, any positive number (R8), whose free values are those of `stream`
(log entry 19); with an invalid record no instance is created (R380, R382). -/
def boot (nPorts stream : Nat) (c : ConfigRecord) : Option State :=
  if 0 < nPorts then c.load.map fun cfg => State.fresh cfg nPorts stream else none

/-- Every port is `Idle`, the condition on which a reset may be taken (R380). -/
def State.allIdle (s : State) : Bool := s.ports.all fun p => p.status == .idle

/-- `RESET(C)` of a running instance, a partial function (R380, R382): configuration, session table, id counter and
`WORK` as R39 says, the ports idle as they are. Delivered responses and the counters that index free values stay. Log
entry 12. -/
def State.resetWith (c : ConfigRecord) (s : State) : Option State :=
  if s.allIdle then
    c.load.map fun cfg =>
      { s with cfg := cfg, sess := .empty, nextId := Config.sessionIdBase, work := .cleared, out := none }
  else none

end Sys2Proof.Machine
end

