-- ==== Sys2Proof/Machine/AtAdapter.lean ====
section
/-! DEFINITION. The AT host interface (`45_at_adapter.md`): a command string becomes at most one command frame on a
port, and the response frame becomes reply lines. Lines are byte strings of ASCII text without terminator (R300). -/

namespace Sys2Proof.Machine

/-- The five keywords (R301). -/
inductive AtKeyword where
  | cuad
  | ccho
  | cchc
  | cgla
  | crla
deriving DecidableEq, Repr

/-- A keyword's text (R301). -/
def AtKeyword.text : AtKeyword → Bytes
  | .cuad => ascii ['A', 'T', '+', 'C', 'U', 'A', 'D']
  | .ccho => ascii ['A', 'T', '+', 'C', 'C', 'H', 'O']
  | .cchc => ascii ['A', 'T', '+', 'C', 'C', 'H', 'C']
  | .cgla => ascii ['A', 'T', '+', 'C', 'G', 'L', 'A']
  | .crla => ascii ['A', 'T', '+', 'C', 'R', 'L', 'A']

/-- What a line asks for. -/
inductive AtAction where
  /-- The line is malformed: `ERROR`, no command (R302). -/
  | malformed
  /-- A capability query: `OK`, no command (R304). -/
  | query
  /-- One command is issued, and its response is rendered for the keyword (R307 to R312). -/
  | issue (kw : AtKeyword) (command : Instr)
deriving DecidableEq, Repr

/-- `=`. -/
def eqSign : Byte := 0x3D
/-- `?`. -/
def questionMark : Byte := 0x3F
/-- `,`. -/
def comma : Byte := 0x2C
/-- `"`. -/
def quote : Byte := 0x22
/-- A white-space character: no line may hold one (R303, decision D23 'no whitespace'). The spec does not list the
characters; PRESUMED from ASCII: tab, line feed, vertical tab, form feed, carriage return and space. Log entry 14. -/
def isWhiteSpace (c : Byte) : Bool := (0x09 ≤ c.toNat && c.toNat ≤ 0x0D) || c.toNat == 0x20

/-- The reply line `OK` (R300). -/
def okLine : Bytes := ascii ['O', 'K']
/-- The reply line `ERROR` (R300). -/
def errorLine : Bytes := ascii ['E', 'R', 'R', 'O', 'R']

/-- The text after the keyword, where the line begins with it and the end of the line or `=` follows (R301). -/
def afterKeyword (kw : AtKeyword) (line : Bytes) : Option Bytes :=
  if kw.text.isPrefixOf line then
    match line.drop kw.text.length with
    | [] => some []
    | c :: rest => if c = eqSign then some (c :: rest) else none
  else none

/-- Recognition: the keyword of a line, and the text after it (R301). -/
def recognise (line : Bytes) : Option (AtKeyword × Bytes) :=
  [AtKeyword.cuad, .ccho, .cchc, .cgla, .crla].findSome? fun kw => (afterKeyword kw line).map fun rest => (kw, rest)

/-- The last two characters are `=?` (R304). -/
def isQuery (line : Bytes) : Bool := line.drop (line.length - 2) == [eqSign, questionMark]

/-- The argument text split at every comma (R303). -/
def splitCommas : Bytes → List Bytes
  | [] => [[]]
  | c :: rest =>
    if c = comma then [] :: splitCommas rest
    else
      match splitCommas rest with
      | field :: fields => (c :: field) :: fields
      | [] => [[c]]

/-- The text before and after the first comma (R312). -/
def splitFirstComma : Bytes → Option (Bytes × Bytes)
  | [] => none
  | c :: rest =>
    if c = comma then some ([], rest) else (splitFirstComma rest).map fun p => (c :: p.1, p.2)

/-- An `<id>` field: one to five decimal digits with value at most 65535 (R303). -/
def parseId (t : Bytes) : Option U16 :=
  match parseDec t with
  | some n => if n ≤ 65535 then some (BitVec.ofNat 16 n) else none
  | none => none

/-- One enclosing pair of double quotes is removed, if the field begins with one (R303). -/
def unquote (t : Bytes) : Option Bytes :=
  match t with
  | c :: rest =>
    if c = quote then
      match rest.getLast? with
      | some last => if last = quote then some rest.dropLast else none
      | none => none
    else some t
  | [] => some t

/-- A hexadecimal field, quoted or not, of a bounded number of bytes (R303). -/
def parseHexField (least most : Nat) (t : Bytes) : Option Bytes := do
  let inner ← unquote t
  let x ← unhex inner
  if least ≤ x.length ∧ x.length ≤ most then some x else none

/-- The command of a keyword and its argument text; none is a malformed line (R303, R305, R306, R307 to R312). -/
def atCommand (kw : AtKeyword) (args : Bytes) : Option Instr :=
  match kw with
  | .cuad => none
  | .ccho =>
    match splitCommas args with
    | [aidHex] => (parseHexField 1 255 aidHex).map .openChannel
    | _ => none
  | .cchc =>
    match splitCommas args with
    | [idText] => (parseId idText).map .closeChannel
    | _ => none
  | .cgla =>
    match splitCommas args with
    | [idText, lcText, apduHex] => do
      let id ← parseId idText
      let _ ← parseDec lcText
      let apdu ← parseHexField 0 65535 apduHex
      pure (apduCommand id apdu)
    | _ => none
  | .crla => do
    let (idText, cmd) ← splitFirstComma args
    let id ← parseId idText
    if cmd.length ≤ 65535 then some (.fileAccess id cmd) else none

/-- What a line asks for: recognition (R301), the capability query before every other rule (R304), no white space
anywhere, also not inside an `AT+CRLA` file command (R303, D23; log entry 14), the bare keyword, allowed for `AT+CUAD`
only (R305), and then the arguments. -/
def atParse (line : Bytes) : AtAction :=
  match recognise line with
  | none => .malformed
  | some (kw, rest) =>
    if isQuery line then .query
    else if line.any isWhiteSpace then .malformed
    else
      match rest with
      | [] => if kw = .cuad then .issue .cuad .listAids else .malformed
      | _ :: args =>
        match atCommand kw args with
        | some i => .issue kw i
        | none => .malformed

/-- The `+CUAD:` lines of the `n` entries of a listing (R307, payload of R96). -/
def cuadLines : Nat → Bytes → List Bytes
  | 0, _ => []
  | n + 1, payload =>
    match readFields [.lv1, .u8] payload with
    | some ([.lv1 aid, .u8 _], rest) =>
      (ascii ['+', 'C', 'U', 'A', 'D', ':', ' '] ++ hex aid) :: cuadLines n rest
    | _ => []

/-- The reply lines of a response frame (R307 to R312, R315). -/
def atReply (kw : AtKeyword) (response : Bytes) : List Bytes :=
  match kw, response with
  | .cuad, rc :: n :: entries => if rc = 0x00 then cuadLines n.toNat entries ++ [okLine] else [errorLine]
  | .ccho, [rc, hi, lo] =>
    if rc = 0x00 then
      [ascii ['+', 'C', 'C', 'H', 'O', ':', ' '] ++ dec (u16OfBytes hi lo).toNat, okLine]
    else [errorLine]
  | .cchc, rc :: _ => if rc = 0x00 then [okLine] else [errorLine]
  | .cgla, rc :: _ :: _ :: card =>
    if rc = 0x00 then
      [ascii ['+', 'C', 'G', 'L', 'A', ':', ' '] ++ dec (2 * card.length) ++ [comma, quote] ++ hex card ++ [quote],
        okLine]
    else [errorLine]
  | .crla, rc :: ok :: _ :: _ :: text =>
    if rc = 0x00 ∧ ok = 0x01 then [ascii ['+', 'C', 'R', 'L', 'A', ':', ' '] ++ text, okLine] else [errorLine]
  | _, _ => [errorLine]

/-- The arbiter serves until port `p` is idle, at most `fuel` commands: the adapter waits for its command's response
(R300), and commands pending on other ports may be served before it (R290). -/
def State.serveUntilIdle : Nat → Nat → State → State
  | 0, _, s => s
  | fuel + 1, p, s =>
    match s.ports[p]? with
    | some ⟨.pending _ _, _⟩ =>
      match step s with
      | .next t => State.serveUntilIdle fuel p t
      | .fault _ => s
      | .refused _ => s
    | _ => s

/-- The response last delivered on port `p`; empty where there is none. -/
def State.replyAt (p : Nat) (s : State) : Bytes :=
  match s.ports[p]? with
  | some ⟨_, some r⟩ => r
  | _ => []

/-- One command string on port `p`: its reply lines and the state after it (R300). Every pending command is served
within as many services as there are ports. None where the port is not idle, so that no command can be submitted
(R391). -/
def atLine (p : Nat) (line : Bytes) (s : State) : Option (List Bytes × State) :=
  match atParse line with
  | .malformed => some ([errorLine], s)
  | .query => some ([okLine], s)
  | .issue kw i =>
    match s.submit p (encode i) with
    | none => none
    | some submitted =>
      let done := submitted.serveUntilIdle submitted.ports.length p
      some (atReply kw (done.replyAt p), done)

end Sys2Proof.Machine
end

