-- ==== Sys2Proof/Machine/Instances.lean ====
section
/-! DEFINITION. Instances and what their hosts do (R7, R290, R370 to R372, R380, R385): an instance that may not have
been reset yet, the events at its boundary, and a system of instances that share nothing. -/

namespace Sys2Proof.Machine

/-- What can happen to an instance: a reset, a submission on a port, an arbiter step. -/
inductive HostEvent where
  | reset (c : ConfigRecord)
  | submit (port : Nat) (frame : Bytes)
  | serve
deriving DecidableEq, Repr

/-- A running instance after an event. A refused reset and a submission that is not accepted change nothing (R382,
R391). -/
def State.after (e : HostEvent) (s : State) : State :=
  match e with
  | .reset c => (s.resetWith c).getD s
  | .submit p frame => (s.submit p frame).getD s
  | .serve =>
    match step s with
    | .next t => t
    | .fault _ => s
    | .refused _ => s

/-- A running instance after a sequence of events, the first of the list first. -/
def State.afterAll (es : List HostEvent) (s : State) : State := es.foldl (fun t e => t.after e) s

/-- An instance: its number of ports, a parameter of the instance (R8, R370), the stream of its free values (the model's
own, log entry 19), and its state, none until its first accepted reset (R385). -/
structure Instance where
  nPorts : Nat
  stream : Nat
  state : Option State
deriving DecidableEq, Repr

/-- One step of an instance's state; one that was never reset answers nothing (R385, I17). -/
def Instance.step (c : Instance) : Host.Outcome State Fault Refusal :=
  match c.state with
  | none => .fault .neverReset
  | some s => Sys2Proof.Machine.step s

/-- An instance after an event. Before its first reset only an accepted reset does anything, and it gives the instance
its own number of ports (R8, R382, R385). -/
def Instance.after (e : HostEvent) (c : Instance) : Instance :=
  match c.state with
  | some s => { c with state := some (s.after e) }
  | none =>
    match e with
    | .reset r => { c with state := boot c.nPorts c.stream r }
    | .submit _ _ => c
    | .serve => c

/-- A system: any number of instances, each with its own number of ports and its own stream (R370, R372). -/
abbrev System := List Instance

/-- An event at instance `k` of a system (R371, R372). -/
def System.after (k : Nat) (e : HostEvent) (sys : System) : System := sys.modify k (Instance.after e)

end Sys2Proof.Machine
end

