-- ==== Sys2Proof/Machine/Ts35206.lean ====
section
/-! DEFINITION. The reading of Milenage in the terms of TS 35.206 that R201 gives: 128-bit strings whose bit 0 is the
most significant bit of byte 0, cyclic left rotations r1 to r5, constants c1 to c5. The machine does not run it; a
statement says the UMTS unit computes the same. -/

namespace Sys2Proof.Machine

/-- The 128-bit string of a block (R12, R201). -/
def bitsOf (x : B 16) : BitVec 128 := BitVec.ofNat 128 (intOf x.toList)

/-- The block of a 128-bit string. -/
def blockOf (v : BitVec 128) : B 16 :=
  ofList ((List.range 16).map fun i => v.extractLsb' (8 * (15 - i)) 8) (by simp)

/-- `rot(X, r)`: the cyclic left rotation by `r` bits (R201). -/
def rot (x : B 16) (r : Nat) : B 16 := blockOf ((bitsOf x).rotateLeft r)

/-- TEMP (R193). -/
def tsTemp (k opc rand : B 16) : B 16 := aes k (bxor rand opc)

/-- OUT1 over `IN1 = SQN ‖ AMF ‖ SQN ‖ AMF`, with r1 = 64 and c1 = 0 (R196, R201). -/
def tsOut1 (k opc rand : B 16) (sqn : B 6) (amf : B 2) : B 16 :=
  bxor (aes k (bxor (tsTemp k opc rand) (rot (bxor (in1Of sqn amf) opc) 64))) opc

/-- OUT2 to OUT5, with rotation `r` and the constant whose last byte is `c` (R201). -/
def tsOut (k opc rand : B 16) (r : Nat) (c : Byte) : B 16 :=
  bxor (aes k (bxor (rot (bxor (tsTemp k opc rand) opc) r) (constByte c))) opc

/-- f1: MAC-A (R196). -/
def tsF1 (k opc rand : B 16) (sqn : B 6) (amf : B 2) : B 8 := slice (tsOut1 k opc rand sqn amf).toList 0 8

/-- f1*: MAC-S (R198). -/
def tsF1Star (k opc rand : B 16) (sqn : B 6) (amf : B 2) : B 8 := slice (tsOut1 k opc rand sqn amf).toList 8 8

/-- f2: RES (r2 = 0, c2 = 1; R194). -/
def tsF2 (k opc rand : B 16) : B 8 := slice (tsOut k opc rand 0 0x01).toList 8 8

/-- f3: CK (r3 = 32, c3 = 2; R200). -/
def tsF3 (k opc rand : B 16) : B 16 := tsOut k opc rand 32 0x02

/-- f4: IK (r4 = 64, c4 = 4; R200). -/
def tsF4 (k opc rand : B 16) : B 16 := tsOut k opc rand 64 0x04

/-- f5: AK (r2 = 0, c2 = 1; R194). -/
def tsF5 (k opc rand : B 16) : B 6 := slice (tsOut k opc rand 0 0x01).toList 0 6

/-- f5*: AK* (r5 = 96, c5 = 8; R198). -/
def tsF5Star (k opc rand : B 16) : B 6 := slice (tsOut k opc rand 96 0x08).toList 0 6

/-- The SQN an AUTN carries: `AUTN[0..6) ⊕ AK` (R195). -/
def tsSqn (k opc rand autn : B 16) : B 6 := bxor (slice autn.toList 0 6) (tsF5 k opc rand)

/-- The AUTN of a challenge: `SQN⊕AK ‖ AMF ‖ MAC-A` (R60). -/
def tsAutn (k opc rand : B 16) (sqn : B 6) (amf : B 2) : B 16 :=
  bcat (bcat (bxor sqn (tsF5 k opc rand)) amf) (tsF1 k opc rand sqn amf)

/-- The re-synchronisation token `(SQN_stored ⊕ AK*) ‖ MAC-S`, with AMF zero (R198). -/
def tsAuts (k opc rand : B 16) (sqnStored : B 6) : B 14 :=
  bcat (bxor sqnStored (tsF5Star k opc rand)) (tsF1Star k opc rand sqnStored (Vector.replicate 2 0))

/-- The card's side of the authentication, by the functions f1 to f5* (R195 to R200). -/
def tsAuthenticate (k opc : B 16) (sqnStored : B 6) (rand autn : B 16) : MilenageOutcome :=
  let sqn := tsSqn k opc rand autn
  if sqn ≠ sqnStored then .syncFailure (tsAuts k opc rand sqnStored)
  else if tsF1 k opc rand sqn (slice autn.toList 6 2) ≠ slice autn.toList 8 8 then .invalidMac
  else .ok (tsF2 k opc rand) (tsF3 k opc rand) (tsF4 k opc rand)

end Sys2Proof.Machine
end

