-- ==== Sys2Proof/Safety.lean ====
section
/-! DEFINITION. What a well-behaved state is, in the terms the statements use: the session-table invariants of R31,
the range of `NEXT_ID` (R32), the registry's validity (R26, R381), and `WORK` empty between commands (R35). -/

namespace Sys2Proof.Machine

/-- An id OPEN_CHANNEL can issue (R65). -/
def idInRange (id : U16) : Bool := decide (Config.sessionIdBase ≤ id)

/-- The invariants of every reachable state (R26, R31, R32, R35). -/
structure State.Inv (s : State) : Prop where
  /-- The registry is valid (R26, R381). -/
  registryValid : validAids s.cfg.aids = true
  /-- No two open sessions have the same id (R31 b). -/
  idsDistinct : s.sess.inUse.Nodup
  /-- Every open session's id is in `[257, 65535]` (R31 c). -/
  idsInRange : ∀ id ∈ s.sess.inUse, idInRange id = true
  /-- Every open session's AID and type are those of a registry entry (R31 d). -/
  registered : ∀ k ∈ s.sess.openSlots, ∃ e ∈ s.cfg.aids, e.aid = k.aid ∧ e.type = k.type
  /-- `NEXT_ID` is in `[257, 65535]` (R32). -/
  nextIdInRange : idInRange s.nextId = true
  /-- `WORK` is empty between commands (R35). -/
  workCleared : s.work = .cleared

/-- The state a command leaves. -/
def stateAfter (i : Instr) (s : State) : State :=
  match exec i s with
  | .next t => t
  | .fault _ => s
  | .refused _ => s

/-- The response frame a command gives. -/
def responseOf (i : Instr) (s : State) : Option Bytes :=
  match exec i s with
  | .next t => t.out
  | .fault _ => none
  | .refused _ => none

/-- Two states agree on everything but the key material `Ki`, `OPc` and `SQN` (R29). -/
def sameButKeys (s t : State) : Prop :=
  t = { s with cfg := { s.cfg with ki := t.cfg.ki, opc := t.cfg.opc, sqn := t.cfg.sqn } }

/-- The commands that use the instance's key material: the APDU commands (R23, R24, R25). -/
def usesKeys : Instr → Bool
  | .apduExec _ _ => true
  | .authenticateGsm _ _ => true
  | .authenticateUmts _ _ => true
  | .listAids => false
  | .openChannel _ => false
  | .closeChannel _ => false
  | .lookup _ => false
  | .fileAccess _ _ => false
  | .aesEncrypt _ _ => false
  | .gsmAuth _ _ => false
  | .umtsAuth _ _ _ _ _ => false
  | .classify _ _ => false

/-- How many of the four slots two session tables differ in. -/
def slotsChanged (t u : SessionTable) : Nat := (t.slots.zip u.slots).countP fun p => p.1 != p.2

end Sys2Proof.Machine
end

