-- ==== Sys2Proof/Certificates/Slice0/Obligations.lean ====
section
/-! DEFINITION. The statements about the machine. Each docstring names the rules of spec/ it formalises, or says that
it is the model's own choice and names the log entry. -/

open Sys2Proof Sys2Proof.Machine

/-! ### Encoding -/

/-- R91, R92, R93, R104: the frame of a well-formed command decodes to that command, whatever its operands. -/
def Obligations.DecodeInvertsEncode : Prop :=
  ∀ i : Instr, i.wf = true → decode (encode i) = .ok i

/-- R91, R97: a frame that decodes is the frame of exactly one command, and that command is well formed. -/
def Obligations.EveryFrameIsItsCommandsEncoding : Prop :=
  ∀ (frame : Bytes) (i : Instr), decode frame = .ok i → i.wf = true ∧ encode i = frame

/-- R92, R93: one frame of each of the nine formats, written out from the format table, decodes to its command; and a
frame of opcode 0x05 whose APDU has the GSM-context header of R104 is read as the AUTHENTICATE row, which is the model's
choice of terms (log entry 7). -/
def Obligations.SampleFramesDecode : Prop :=
  decode [0x01] = .ok .listAids ∧
  decode [0x02, 0x02, 0xA0, 0x07] = .ok (.openChannel [0xA0, 0x07]) ∧
  decode [0x04, 0x01, 0x02] = .ok (.lookup 0x0102) ∧
  decode [0x06, 0x01, 0x01, 0x00, 0x02, 0x42, 0x30] = .ok (.fileAccess 0x0101 [0x42, 0x30]) ∧
  decode [0x05, 0x01, 0x01, 0x00, 0x02, 0x00, 0x88] = .ok (.apduExec 0x0101 [0x00, 0x88]) ∧
  decode [0x10, 0x02, 0xAA, 0xAB, 0x01, 0xBB] = .ok (.aesEncrypt [0xAA, 0xAB] [0xBB]) ∧
  decode [0x11, 0x01, 0xAA, 0x02, 0xBB, 0xCC] = .ok (.gsmAuth [0xAA] [0xBB, 0xCC]) ∧
  decode [0x12, 0x01, 0xA1, 0x02, 0xA2, 0xB2, 0x00, 0x01, 0xA4, 0x03, 0xA5, 0xB5, 0xC5] =
    .ok (.umtsAuth [0xA1] [0xA2, 0xB2] [] [0xA4] [0xA5, 0xB5, 0xC5]) ∧
  decode [0x13, 0x02, 0x00, 0x88, 0x01] = .ok (.classify [0x00, 0x88] 0x01) ∧
  decode [0x05, 0x01, 0x01, 0x00, 0x06, 0x00, 0x88, 0x00, 0x80, 0x11, 0x10] = .ok (.authenticateGsm 0x0101 [0x10])

/-- R94: a frame with a reserved opcode is not well formed, whatever follows the opcode, and gets `ERR_FRAME`. -/
def Obligations.ReservedOpcodesGetErrFrame : Prop :=
  ∀ (op : Byte) (rest : Bytes) (s : State),
    (op.toNat = 0x00 ∨ (0x07 ≤ op.toNat ∧ op.toNat ≤ 0x0F) ∨ 0x14 ≤ op.toNat) →
    decode (op :: rest) = .error .reservedOpcode ∧
      runFrame (op :: rest) s = .next { s with work := .cleared, out := some [0x01] }

/-- R91: a frame that is not well formed gets `ERR_FRAME` and changes no state but `WORK`, which is cleared. -/
def Obligations.MalformedFramesGetErrFrame : Prop :=
  ∀ (frame : Bytes) (e : FrameError) (s : State), decode frame = .error e →
    runFrame frame s = .next { s with work := .cleared, out := some [0x01] }

/-! ### The step and the arbiter -/

/-- R290, R69: where the arbiter chooses a command whose frame decodes to `i`, the step is `exec i`, and then the
response is delivered on the command's port, which becomes idle, and the service count goes up by one. -/
def Obligations.StepRunsTheChosenCommand : Prop :=
  ∀ (s t : State) (c : Selected) (i : Instr), selectPort 0 s.ports = some c → decode c.frame = .ok i →
    exec i s = .next t →
    step s = .next { t with ports := t.ports.set c.port ⟨.idle, t.out⟩, out := none, served := t.served + 1 }

/-- R374, R384: with no command pending the block waits and its state stays as it is. -/
def Obligations.IdleMachineWaits : Prop :=
  ∀ s : State, (∀ p ∈ s.ports, p.status = .idle) → step s = .next s

/-- The model's convention (log entries 8 and 9): the word of a table row, placed for the step, is the very next
command, and it runs as `exec` of the instruction the decoder reads. -/
def Obligations.PlacedWordRunsNext : Prop :=
  ∀ (s : State) (nbits w : Nat) (i : Instr), decodeTableWord nbits w = some i →
    step (s.withFetchWord nbits w) = deliverOutcome 0 (exec i (s.withFetchWord nbits w))

/-- R291, R290: the step that serves a command always completes: exactly one response is delivered, on the command's
port, which becomes idle; every other port is unchanged, and nothing stays undelivered. -/
def Obligations.EveryServedCommandIsAnsweredOnce : Prop :=
  ∀ (s : State) (c : Selected), selectPort 0 s.ports = some c →
    ∃ t response, step s = .next t ∧ t.ports = s.ports.set c.port ⟨.idle, some response⟩ ∧ t.out = none ∧
      t.served = s.served + 1

/-- R290 (weakly fair), by the model's `due` stamps (log entry 3): a pending command is answered within a bound that
depends on its stamp and the number of ports only, whatever the hosts submit meanwhile. -/
def Obligations.PendingCommandIsEventuallyServed : Prop :=
  ∀ (s : State) (es : List HostEvent) (p : Nat) (frame : Bytes) (due : Nat) (old : Option Bytes),
    s.ports[p]? = some ⟨.pending frame due, old⟩ →
    (due + 1 - s.served) + s.ports.length ≤ es.countP (fun e => e == .serve) →
    ∃ n response, n ≤ es.length ∧ (s.afterAll (es.take n)).ports[p]? = some ⟨.idle, some response⟩

/-- R290, R391: a submission is accepted on an idle port, where it makes the port pending with the frame and changes
nothing else of the spec's state; on a port that is pending or does not exist it is not accepted. -/
def Obligations.SubmissionNeedsAnIdlePort : Prop :=
  ∀ (s : State) (p : Nat) (frame : Bytes),
    (∀ old, s.ports[p]? = some ⟨.idle, old⟩ →
      ∃ due, s.served ≤ due ∧ s.submit p frame =
        some { s with ports := s.ports.set p ⟨.pending frame due, none⟩, submitted := s.submitted + 1 }) ∧
    ((∀ old, s.ports[p]? ≠ some ⟨.idle, old⟩) → s.submit p frame = none)

/-! ### Invariants and the rules over all commands -/

/-- R26, R31, R32, R35 at reset. -/
def Obligations.ResetStateIsInvariant : Prop := State.reset.Inv

/-- R26, R31, R32, R35: every step keeps the invariants, from every state that has them. -/
def Obligations.EveryStepKeepsTheInvariants : Prop :=
  ∀ s t : State, s.Inv → step s = .next t → t.Inv

/-- R31, R32, R39, R380: a first reset, a reset of a running instance and a submission give states with the
invariants. -/
def Obligations.ResetAndSubmissionKeepTheInvariants : Prop :=
  (∀ n stream c s, boot n stream c = some s → s.Inv) ∧
  (∀ c s t, State.resetWith c s = some t → t.Inv) ∧
  (∀ p frame s t, s.Inv → State.submit p frame s = some t → t.Inv)

/-- R70: OPEN_CHANNEL writes at most one slot and `NEXT_ID`; CLOSE_CHANNEL at most one slot, and of it only `valid`;
every other command leaves the state as it was, but for `WORK` and the response, and for FILE_ACCESS the collaborator's
call count. -/
def Obligations.OnlyOpenAndCloseWriteState : Prop :=
  ∀ (i : Instr) (s t : State), exec i s = .next t →
    (∀ aid, i = .openChannel aid → slotsChanged s.sess t.sess ≤ 1 ∧
      t = { s with sess := t.sess, nextId := t.nextId, work := .cleared, out := t.out }) ∧
    (∀ id, i = .closeChannel id → slotsChanged s.sess t.sess ≤ 1 ∧
      (∀ p ∈ s.sess.slots.zip t.sess.slots, p.2 = p.1 ∨ p.2 = { p.1 with valid := false }) ∧
      t = { s with sess := t.sess, work := .cleared, out := t.out }) ∧
    ((∀ aid, i ≠ .openChannel aid) → (∀ id, i ≠ .closeChannel id) →
      t = { s with work := .cleared, out := t.out, fsCalls := t.fsCalls } ∧
      ((∀ id cmd, i ≠ .fileAccess id cmd) → t.fsCalls = s.fsCalls))

/-- R350: a command that raises an error leaves the whole state as it was, `WORK` zero, and its response carries no
payload. -/
def Obligations.ErrorsArePrecise : Prop :=
  ∀ (frame payload : Bytes) (rc : Byte) (s t : State), runFrame frame s = .next t → t.out = some (rc :: payload) →
    rc ≠ 0x00 → payload = [] ∧ t = { s with work := .cleared, out := some [rc] }

/-- R95: every frame is answered by one response frame, its result code is one of the seven, and only `DONE` carries a
payload. -/
def Obligations.ResponsesHaveTheSevenCodes : Prop :=
  ∀ (frame : Bytes) (s : State), ∃ t rc payload, runFrame frame s = .next t ∧ t.out = some (rc :: payload) ∧
    rc.toNat ≤ 0x06 ∧ (rc ≠ 0x00 → payload = [])

/-- R35, R37: `WORK` is cleared at the end of every command, whatever its outcome, and no command reads a value an
earlier command left in it. -/
def Obligations.WorkIsClearedAndNeverRead : Prop :=
  ∀ (frame : Bytes) (s : State) (w : Working), runFrame frame { s with work := w } = runFrame frame s ∧
    ∀ t, runFrame frame s = .next t → t.work = .cleared

/-- R29, R360 (with R23, R24, R25): no command but the APDU commands has a response or an effect that depends on the
key material. -/
def Obligations.KeysReachOnlyApduResponses : Prop :=
  ∀ (i : Instr) (s s' t t' : State), usesKeys i = false → sameButKeys s s' → exec i s = .next t →
    exec i s' = .next t' → t'.out = t.out ∧ sameButKeys t t'

/-- R38, R273: which slot holds a session is not observable. Of two states whose open sessions are the same in some
other slots, every command gives the same response and leaves the same open sessions and counter. -/
def Obligations.SlotIndexIsNotObservable : Prop :=
  ∀ (i : Instr) (s t t' : State) (table : SessionTable), s.sess.inUse.Nodup →
    table.openSlots.Perm s.sess.openSlots → exec i s = .next t → exec i { s with sess := table } = .next t' →
    t'.out = t.out ∧ t'.nextId = t.nextId ∧ t'.sess.openSlots.Perm t.sess.openSlots

/-! ### The session table -/

/-- R276: LIST_AIDS answers the count and then every entry in configuration order. -/
def Obligations.ListAidsResult : Prop :=
  ∀ s : State, exec .listAids s = .next { s with
    work := .cleared
    out := some (0x00 :: BitVec.ofNat 8 s.cfg.aids.length ::
      s.cfg.aids.flatMap fun e => lv1 e.aid ++ [e.type.code]) }

/-- R270, R271: with four sessions open `ERR_CHANNEL_LIMIT`; else for an AID of no entry `ERR_UNKNOWN_AID`; else, for
the entry with that AID, the session is opened under the candidate id, `NEXT_ID` becomes its successor, and the id is
the response. -/
def Obligations.OpenChannelResult : Prop :=
  ∀ (aid : Bytes) (s : State),
    (s.sess.openCount = 4 → exec (.openChannel aid) s = .next { s with work := .cleared, out := some [0x02] }) ∧
    (s.sess.openCount < 4 → (∀ e ∈ s.cfg.aids, e.aid ≠ aid) →
      exec (.openChannel aid) s = .next { s with work := .cleared, out := some [0x03] }) ∧
    (∀ e, s.sess.openCount < 4 → validAids s.cfg.aids = true → e ∈ s.cfg.aids → e.aid = aid →
      exec (.openChannel aid) s = .next { s with
        sess := s.sess.put ⟨true, s.candidateId, aid, e.type⟩
        nextId := succId s.candidateId
        work := .cleared
        out := some (0x00 :: u16Bytes s.candidateId) })

/-- R273: a new session goes into the lowest-numbered slot that is not valid, and no other slot changes. -/
def Obligations.NewSessionTakesTheLowestFreeSlot : Prop :=
  ∀ (t : SessionTable) (k free : Slot) (j : Nat), t.slots[j]? = some free → free.valid = false →
    (∀ m used, m < j → t.slots[m]? = some used → used.valid = true) → (t.put k).slots = t.slots.set j k

/-- R272: while an open can succeed, the id given out is the first of `NEXT_ID, succ(NEXT_ID), …` not in use, and at
most three candidates are skipped; 65535 is followed by 257. -/
def Obligations.IdGivenOutIsTheFirstFree : Prop :=
  succId 65535 = 257 ∧ (∀ v : U16, v.toNat < 65535 → (succId v).toNat = v.toNat + 1) ∧
  ∀ s : State, s.sess.openCount < 4 →
    ∃ n, n ≤ 3 ∧ s.candidateId = succId^[n] s.nextId ∧ s.candidateId ∉ s.sess.inUse ∧
      ∀ m, m < n → succId^[m] s.nextId ∈ s.sess.inUse

/-- R274: CLOSE_CHANNEL makes the slot of the open session of that id invalid and changes no other slot and not
`NEXT_ID`; for an id of no open session it changes nothing; it always answers `DONE`. -/
def Obligations.CloseChannelResult : Prop :=
  ∀ (id : U16) (s : State),
    (id ∉ s.sess.inUse → exec (.closeChannel id) s = .next { s with work := .cleared, out := some [0x00] }) ∧
    (∀ (j : Nat) (k : Slot), s.sess.inUse.Nodup → s.sess.slots[j]? = some k → k.valid = true → k.id = id →
      ∃ table, table.slots = s.sess.slots.set j { k with valid := false } ∧
        exec (.closeChannel id) s = .next { s with sess := table, work := .cleared, out := some [0x00] })

/-- R246 (b), R274, R277, R390: after a close the id is unknown to every command that needs a session, and a second
close answers `DONE` and changes nothing. -/
def Obligations.ClosedSessionIsGone : Prop :=
  ∀ (id : U16) (apdu body cmd : Bytes) (s : State), s.sess.inUse.Nodup →
    responseOf (.lookup id) (stateAfter (.closeChannel id) s) = some [0x04] ∧
    responseOf (.apduExec id apdu) (stateAfter (.closeChannel id) s) = some [0x04] ∧
    responseOf (.authenticateGsm id body) (stateAfter (.closeChannel id) s) = some [0x04] ∧
    responseOf (.authenticateUmts id body) (stateAfter (.closeChannel id) s) = some [0x04] ∧
    responseOf (.fileAccess id cmd) (stateAfter (.closeChannel id) s) = some [0x04] ∧
    exec (.closeChannel id) (stateAfter (.closeChannel id) s) = .next (stateAfter (.closeChannel id) s)

/-- R275: LOOKUP answers the AID and the type of the open session of that id, and `ERR_NOT_FOUND` for every id of no
open session. -/
def Obligations.LookupResult : Prop :=
  ∀ (id : U16) (s : State),
    (id ∉ s.sess.inUse → exec (.lookup id) s = .next { s with work := .cleared, out := some [0x04] }) ∧
    (∀ k, s.sess.inUse.Nodup → k ∈ s.sess.openSlots → k.id = id →
      exec (.lookup id) s = .next { s with
        work := .cleared
        out := some (0x00 :: (lv1 k.aid ++ [k.type.code])) })

/-- R270, R275, R390: the id a successful OPEN_CHANNEL returns was not in use, and the LOOKUP of it right after answers
the AID that was opened and its registry entry's type. -/
def Obligations.OpenedSessionIsFoundByItsId : Prop :=
  ∀ (aid : Bytes) (id : U16) (s : State), responseOf (.openChannel aid) s = some (0x00 :: u16Bytes id) →
    id ∉ s.sess.inUse ∧ ∃ e ∈ s.cfg.aids, e.aid = aid ∧
      responseOf (.lookup id) (stateAfter (.openChannel aid) s) = some (0x00 :: (lv1 aid ++ [e.type.code]))

/-- R280: from a table with no session, after four opens of known AIDs a fifth fails with the channel limit, known or
not; after one close, an open of a known AID succeeds. -/
def Obligations.FifthOpenFailsUntilAClose : Prop :=
  ∀ (a1 a2 a3 a4 a5 a6 : Bytes) (s : State) (id : U16), s.sess.openSlots = [] →
    (∀ a ∈ [a1, a2, a3, a4, a6], (s.cfg.findAid a).isSome = true) →
    let full := stateAfter (.openChannel a4) (stateAfter (.openChannel a3) (stateAfter (.openChannel a2)
      (stateAfter (.openChannel a1) s)))
    let refused := stateAfter (.openChannel a5) full
    full.sess.openCount = 4 ∧ responseOf (.openChannel a5) full = some [0x02] ∧
      (id ∈ full.sess.inUse →
        ∃ newId, responseOf (.openChannel a6) (stateAfter (.closeChannel id) refused) = some (0x00 :: u16Bytes newId))

/-! ### The AES unit -/

/-- R140, R141: AES_ENCRYPT refuses an operand that is not 16 bytes, whatever the cipher condition; then an unavailable
cipher; and else answers the block. -/
def Obligations.AesEncryptResult : Prop :=
  ∀ (key pt : Bytes) (k x : B 16) (s : State),
    (key.length ≠ 16 ∨ pt.length ≠ 16 →
      exec (.aesEncrypt key pt) s = .next { s with work := .cleared, out := some [0x05] }) ∧
    (s.cfg.cipherAvailable = false →
      exec (.aesEncrypt k.toList x.toList) s = .next { s with work := .cleared, out := some [0x06] }) ∧
    (s.cfg.cipherAvailable = true →
      exec (.aesEncrypt k.toList x.toList) s =
        .next { s with work := .cleared, out := some (0x00 :: (aes k x).toList) })

/-- R145, R146, R147: the S-box table is the affine map of the inverse in GF(2^8), and `inv` is the inverse. -/
def Obligations.SboxIsAffineOfInverse : Prop :=
  (∀ a : Byte, sbox a = affine (gfInv a)) ∧ gfInv 0 = 0 ∧ ∀ a : Byte, a ≠ 0 → gfMul a (gfInv a) = 0x01

/-- R148, R149: ShiftRows and MixColumns, byte by byte of the 4 by 4 state. -/
def Obligations.ShiftRowsAndMixColumnsByTheirFormulas : Prop :=
  (∀ (s : B 16) (r c : Nat), r < 4 → c < 4 → at4 (shiftRows s) r c = at4 s r ((c + r) % 4)) ∧
  (∀ (s : B 16) (c : Nat), c < 4 →
    at4 (mixColumns s) 0 c = gfMul 0x02 (at4 s 0 c) ^^^ gfMul 0x03 (at4 s 1 c) ^^^ at4 s 2 c ^^^ at4 s 3 c ∧
    at4 (mixColumns s) 1 c = at4 s 0 c ^^^ gfMul 0x02 (at4 s 1 c) ^^^ gfMul 0x03 (at4 s 2 c) ^^^ at4 s 3 c ∧
    at4 (mixColumns s) 2 c = at4 s 0 c ^^^ at4 s 1 c ^^^ gfMul 0x02 (at4 s 2 c) ^^^ gfMul 0x03 (at4 s 3 c) ∧
    at4 (mixColumns s) 3 c = gfMul 0x03 (at4 s 0 c) ^^^ at4 s 1 c ^^^ at4 s 2 c ^^^ gfMul 0x02 (at4 s 3 c))

/-- R150: the expansion has 44 words, the first four are the key, and each later word is the word four before it xored
with the previous word, transformed where its number is a multiple of four. -/
def Obligations.KeyExpansionRecurrence : Prop :=
  ∀ (k : B 16), (keyExpansion k).length = 44 ∧
    (∀ i, i < 4 → (keyExpansion k)[i]? = some (slice k.toList (4 * i) 4)) ∧
    (∀ (i : Nat) (u v : B 4), 4 ≤ i → i < 44 → (keyExpansion k)[i - 4]? = some u →
      (keyExpansion k)[i - 1]? = some v →
      (keyExpansion k)[i]? =
        some (bxor u (if i % 4 = 0 then addRcon (i / 4) (subWord (rotWord v)) else v)))

/-- R144, R146 to R151: for every key, encryption is one to one on blocks. -/
def Obligations.EncryptionIsInjective : Prop :=
  ∀ k x y : B 16, aes k x = aes k y → x = y

/-! ### The GSM unit -/

/-- R170, R171, R152: GSM_AUTH refuses an operand that is not 16 bytes; else it answers the twelve bytes of
`COMP128V1`, the four of SRES first, whatever the cipher condition. -/
def Obligations.GsmAuthResult : Prop :=
  ∀ (ki rand : Bytes) (k r : B 16) (s : State),
    (ki.length ≠ 16 ∨ rand.length ≠ 16 →
      exec (.gsmAuth ki rand) s = .next { s with work := .cleared, out := some [0x05] }) ∧
    exec (.gsmAuth k.toList r.toList) s = .next { s with
      work := .cleared
      out := some (0x00 :: ((Config.comp128v1 k r).toList.take 4 ++ (Config.comp128v1 k r).toList.drop 4)) }

/-- R177: after the compression every entry of the array is below 16, for any tables of the stated ranges. -/
def Obligations.CompressionEndsBelowSixteen : Prop :=
  ∀ (tables : Config.Tables) (x : List Nat), x.length = 32 →
    (compress tables x).length = 32 ∧ ∀ v ∈ compress tables x, v < 16

/-- R173, R178: of the published structure, for any tables, the last ten bits of Kc are zero, and SRES is the first
eight entries of the array two to a byte. -/
def Obligations.PublishedKcEndsInTenZeroBits : Prop :=
  ∀ (tables : Config.Tables) (ki rand : B 16),
    (comp128 tables ki rand).toList.getD 11 0 = 0x00 ∧
    (comp128 tables ki rand).toList.getD 10 0 &&& 0x03 = 0x00 ∧
    ∀ i, i < 4 → ((comp128 tables ki rand).toList.getD i 0).toNat =
      16 * (comp128Array tables ki rand).getD (2 * i) 0 + (comp128Array tables ki rand).getD (2 * i + 1) 0

/-! ### The UMTS unit -/

/-- R192, R201: placing a block at offset `k` is a cyclic left rotation of its 128-bit string. -/
def Obligations.PlaceIsRotation : Prop :=
  ∀ (x : B 16) (k : Nat), k < 16 → place x k = rot x (8 * ((16 - k) % 16))

/-- R191, R193 to R201, R205: MILENAGE is the authentication by the functions f1 to f5* of TS 35.206, and without a
cipher it has no outcome. -/
def Obligations.MilenageIsTs35206 : Prop :=
  ∀ (ki opc : B 16) (sqn : B 6) (rand autn : B 16),
    (milenage true ki opc sqn rand autn).map Prod.snd = some (tsAuthenticate ki opc sqn rand autn) ∧
    milenage false ki opc sqn rand autn = none

/-- R96, R190, R205: UMTS_AUTH refuses any operand of a wrong width first; then an unavailable cipher; and else answers
the outcome: code 00 with RES, CK and IK, 01 with AUTS, or 02 alone. -/
def Obligations.UmtsAuthResult : Prop :=
  ∀ (ki opc sqn rand autn : Bytes) (k o : B 16) (q : B 6) (r a : B 16) (s : State),
    (ki.length ≠ 16 ∨ opc.length ≠ 16 ∨ sqn.length ≠ 6 ∨ rand.length ≠ 16 ∨ autn.length ≠ 16 →
      exec (.umtsAuth ki opc sqn rand autn) s = .next { s with work := .cleared, out := some [0x05] }) ∧
    (s.cfg.cipherAvailable = false →
      exec (.umtsAuth k.toList o.toList q.toList r.toList a.toList) s =
        .next { s with work := .cleared, out := some [0x06] }) ∧
    (s.cfg.cipherAvailable = true →
      exec (.umtsAuth k.toList o.toList q.toList r.toList a.toList) s =
        .next { s with
          work := .cleared
          out := some (0x00 ::
            match tsAuthenticate k o q r a with
            | .ok res ck ik => 0x00 :: (res.toList ++ ck.toList ++ ik.toList)
            | .syncFailure auts => 0x01 :: auts.toList
            | .invalidMac => [0x02]) })

/-- R197, R200, R204: an AUTN built from the stored SQN, any AMF and the MAC over them gives `OK` with RES, CK and IK,
which do not depend on the AMF. -/
def Obligations.MatchingChallengeIsAccepted : Prop :=
  ∀ (ki opc : B 16) (sqn : B 6) (amf : B 2) (rand : B 16),
    (milenage true ki opc sqn rand (tsAutn ki opc rand sqn amf)).map Prod.snd =
      some (.ok (tsF2 ki opc rand) (tsF3 ki opc rand) (tsF4 ki opc rand))

/-- R197, R207 (a), (c), (d): an SQN field other than `SQN_stored ⊕ AK` gives `SYNC_FAILURE` whatever the MAC, with a
token that does not depend on the AUTN; with that SQN field, a MAC field other than the MAC over the received AMF gives
`INVALID_MAC`. -/
def Obligations.CorruptedChallengeOutcome : Prop :=
  ∀ (ki opc : B 16) (sqn q : B 6) (amf : B 2) (mac : B 8) (rand : B 16),
    (q ≠ bxor sqn (tsF5 ki opc rand) →
      (milenage true ki opc sqn rand (bcat (bcat q amf) mac)).map Prod.snd =
        some (.syncFailure (tsAuts ki opc rand sqn))) ∧
    (q = bxor sqn (tsF5 ki opc rand) → mac ≠ tsF1 ki opc rand sqn amf →
      (milenage true ki opc sqn rand (bcat (bcat q amf) mac)).map Prod.snd = some .invalidMac)

/-! ### The classifier and the router -/

/-- R231 to R237: each answer of the classifier, exactly on the headers and types whose first deciding rule gives it,
and the value of each status word. -/
def Obligations.ClassifierAppliesItsRulesInOrder : Prop :=
  ∀ (cla ins p1 p2 lc : Byte) (t : AppType),
    (cla ≠ 0x00 → classifyFn cla ins p1 p2 lc t = .statusError .unsupportedClass) ∧
    (ins ≠ 0x88 → classifyFn 0x00 ins p1 p2 lc t = .statusError .unsupportedInstruction) ∧
    (p1 ≠ 0x00 → classifyFn 0x00 0x88 p1 p2 lc t = .statusError .incorrectParameters) ∧
    (lc ≠ 0x11 → classifyFn 0x00 0x88 0x00 0x80 lc t = .statusError .wrongLength) ∧
    classifyFn 0x00 0x88 0x00 0x80 0x11 t =
      (if t = .usim ∨ t = .isim then .gsmAuth else .statusError .applicationError) ∧
    (lc ≠ 0x22 → classifyFn 0x00 0x88 0x00 0x81 lc t = .statusError .wrongLength) ∧
    classifyFn 0x00 0x88 0x00 0x81 0x22 t = (if t = .isim then .umtsAuth else .statusError .applicationError) ∧
    (p2 ≠ 0x80 → p2 ≠ 0x81 → classifyFn 0x00 0x88 0x00 p2 lc t = .statusError .unknown) ∧
    [StatusWord.unsupportedClass, .unsupportedInstruction, .incorrectParameters, .wrongLength, .applicationError,
      .unknown].map StatusWord.value = [0x6E00, 0x6D00, 0x6A86, 0x6700, 0x9862, 0xFFFF]

/-- R230: CLASSIFY refuses a header that is not five bytes first, then an undefined type code, and else answers the
classifier's kind. -/
def Obligations.ClassifyResult : Prop :=
  ∀ (hdr : Bytes) (cla ins p1 p2 lc apptype : Byte) (t : AppType) (s : State),
    (hdr.length ≠ 5 → exec (.classify hdr apptype) s = .next { s with work := .cleared, out := some [0x05] }) ∧
    (0x02 < apptype.toNat →
      exec (.classify [cla, ins, p1, p2, lc] apptype) s = .next { s with work := .cleared, out := some [0x01] }) ∧
    exec (.classify [cla, ins, p1, p2, lc] t.code) s = .next { s with
      work := .cleared
      out := some (0x00 ::
        match classifyFn cla ins p1 p2 lc t with
        | .gsmAuth => [0x01]
        | .umtsAuth => [0x02]
        | .statusError sw => 0x00 :: u16Bytes sw.value) }

/-- R240, R242: APDU_EXEC on an id of no open session is `ERR_NOT_FOUND`, whatever the APDU; on an open session an APDU
of fewer than five bytes gets `67 00`, and one the classifier rejects for the session's type gets that status word,
whatever its body. -/
def Obligations.ApduExecResult : Prop :=
  ∀ (id : U16) (apdu body : Bytes) (cla ins p1 p2 lc : Byte) (sw : StatusWord) (k : Slot) (s : State),
    (id ∉ s.sess.inUse → exec (.apduExec id apdu) s = .next { s with work := .cleared, out := some [0x04] }) ∧
    (id ∈ s.sess.inUse → apdu.length < 5 → exec (.apduExec id apdu) s =
      .next { s with work := .cleared, out := some [0x00, 0x00, 0x02, 0x67, 0x00] }) ∧
    (s.sess.inUse.Nodup → k ∈ s.sess.openSlots → k.id = id →
      classifyFn cla ins p1 p2 lc k.type = .statusError sw →
      exec (.apduExec id (cla :: ins :: p1 :: p2 :: lc :: body)) s =
        .next { s with work := .cleared, out := some ([0x00, 0x00, 0x02] ++ u16Bytes sw.value) })

/-- R104, R240, R242, R245: the two AUTHENTICATE commands are APDU_EXEC of their header followed by the body, with every
outcome. -/
def Obligations.AuthenticateIsApduExecOfItsHeader : Prop :=
  ∀ (id : U16) (body : Bytes) (s : State),
    exec (.authenticateGsm id body) s = exec (.apduExec id ([0x00, 0x88, 0x00, 0x80, 0x11] ++ body)) s ∧
    exec (.authenticateUmts id body) s = exec (.apduExec id ([0x00, 0x88, 0x00, 0x81, 0x22] ++ body)) s

/-- R102, R175, R241, R243: on an open USIM or ISIM session, the GSM body `10 ‖ RAND`, with or without a trailing `Le`,
is answered by `04 ‖ SRES ‖ 08 ‖ Kc` of the instance's `Ki`. -/
def Obligations.AuthenticateGsmResult : Prop :=
  ∀ (id : U16) (rand : B 16) (le : Bytes) (k : Slot) (s : State), s.sess.inUse.Nodup → k ∈ s.sess.openSlots →
    k.id = id → k.type ≠ .other → le.length ≤ 1 →
    exec (.authenticateGsm id (0x10 :: rand.toList ++ le)) s = .next { s with
      work := .cleared
      out := some ([0x00, 0x00, 0x0E] ++ (0x04 :: (Config.comp128v1 s.cfg.ki rand).toList.take 4) ++
        (0x08 :: (Config.comp128v1 s.cfg.ki rand).toList.drop 4)) }

/-- R102, R206, R241, R244: on an open ISIM session, the UMTS body `10 ‖ RAND ‖ 10 ‖ AUTN`, with or without a trailing
`Le`, is answered by the card response of the authentication with the instance's key material, and by `6F 00` without
a cipher. -/
def Obligations.AuthenticateUmtsResult : Prop :=
  ∀ (id : U16) (rand autn : B 16) (le : Bytes) (k : Slot) (s : State), s.sess.inUse.Nodup →
    k ∈ s.sess.openSlots → k.id = id → k.type = .isim → le.length ≤ 1 →
    exec (.authenticateUmts id (0x10 :: rand.toList ++ 0x10 :: autn.toList ++ le)) s = .next { s with
      work := .cleared
      out := some (0x00 :: lv2 (
        if s.cfg.cipherAvailable = false then [0x6F, 0x00]
        else
          match tsAuthenticate s.cfg.ki s.cfg.opc s.cfg.sqn rand autn with
          | .ok res ck ik => [0xDB, 0x08] ++ res.toList ++ [0x10] ++ ck.toList ++ [0x10] ++ ik.toList
          | .syncFailure auts => [0xDC, 0x0E] ++ auts.toList
          | .invalidMac => [0x98, 0x62])) }

/-- R241, R246 (e): on a session whose type admits the context, a body of another length than `Lc` or `Lc + 1`, or with
a wrong length byte before RAND or AUTN, gets `67 00`. -/
def Obligations.WrongBodiesGetWrongLength : Prop :=
  ∀ (id : U16) (body : Bytes) (k : Slot) (s : State), s.sess.inUse.Nodup → k ∈ s.sess.openSlots → k.id = id →
    (k.type ≠ .other → (body.length ≠ 17 ∧ body.length ≠ 18 ∨ body.getD 0 0 ≠ 0x10) →
      exec (.authenticateGsm id body) s =
        .next { s with work := .cleared, out := some [0x00, 0x00, 0x02, 0x67, 0x00] }) ∧
    (k.type = .isim →
      (body.length ≠ 34 ∧ body.length ≠ 35 ∨ body.getD 0 0 ≠ 0x10 ∨ body.getD 17 0 ≠ 0x10) →
      exec (.authenticateUmts id body) s =
        .next { s with work := .cleared, out := some [0x00, 0x00, 0x02, 0x67, 0x00] })

/-! ### File access -/

/-- R313, R314, R354: FILE_ACCESS on an id of no open session is `ERR_NOT_FOUND` and makes no call; on an open session
it makes exactly one call and answers the collaborator's `(ok, response)`, for every answer. The model's choices here:
the answer is a free draw from the instance's stream (log entries 5 and 19), it has at most 65535 bytes (DEDUCED, log
entry 5), and the field `fsCalls` counts the calls (log entry 10). -/
def Obligations.FileAccessResult : Prop :=
  ∀ (id : U16) (cmd : Bytes) (s : State),
    (id ∉ s.sess.inUse → exec (.fileAccess id cmd) s = .next { s with work := .cleared, out := some [0x04] }) ∧
    (id ∈ s.sess.inUse → exec (.fileAccess id cmd) s = .next { s with
      work := .cleared
      fsCalls := s.fsCalls + 1
      out := some (0x00 :: (if (fileAnswer s.stream s.fsCalls cmd).1 = true then 0x01 else 0x00) ::
        lv2 (fileAnswer s.stream s.fsCalls cmd).2) }) ∧
    (fileAnswer s.stream s.fsCalls cmd).2.length ≤ 65535

/-! ### Reset and configuration -/

/-- R39, R380: the first reset with a valid record gives every field the value of R39. -/
def Obligations.FirstResetLoadsTheRecord : Prop :=
  ∀ (n stream : Nat) (c : ConfigRecord), 0 < n → c.valid = true →
    ∃ s, boot n stream c = some s ∧ s.cfg.ki.toList = c.ki ∧ s.cfg.opc.toList = c.opc ∧ s.cfg.sqn.toList = c.sqn ∧
      s.cfg.aids = c.aids ∧ s.cfg.cipherAvailable = c.cipherAvailable ∧ s.sess.openSlots = [] ∧ s.nextId = 257 ∧
      s.work = .cleared ∧ s.ports.length = n ∧ ∀ p ∈ s.ports, p.status = .idle

/-- R380, R382, R386: an invalid record is refused, by a first reset and by a later one, and a reset is taken only when
every port is idle; a reset that is taken loads the whole of `CFG` from the record, discards every session, sets
`NEXT_ID` to 257, clears `WORK`, leaves every port idle, and taken twice with one record gives the same state. -/
def Obligations.ResetIsPartialAndIdempotent : Prop :=
  ∀ (n stream : Nat) (c : ConfigRecord) (s t : State),
    (c.valid = false → boot n stream c = none ∧ s.resetWith c = none) ∧
    (s.allIdle = false → s.resetWith c = none) ∧
    (c.valid = true → s.allIdle = true → ∃ u, s.resetWith c = some u) ∧
    (s.resetWith c = some t → t.sess.openSlots = [] ∧ t.nextId = 257 ∧ t.work = .cleared ∧
      t.cfg.ki.toList = c.ki ∧ t.cfg.opc.toList = c.opc ∧ t.cfg.sqn.toList = c.sqn ∧ t.cfg.aids = c.aids ∧
      t.cfg.cipherAvailable = c.cipherAvailable ∧ t.allIdle = true ∧ t.ports.length = s.ports.length ∧
      t.resetWith c = some t)

/-- R63, R381: a text record that is parsed to a valid record has exactly 32, 32 and 12 hexadecimal characters for
`Ki`, `OPc` and `SQN`, and 2 to 32 for every AID. -/
def Obligations.TextRecordHasExactWidths : Prop :=
  ∀ (c : ConfigText) (r : ConfigRecord), c.parse = some r → r.valid = true →
    c.ki.length = 32 ∧ c.opc.length = 32 ∧ c.sqn.length = 12 ∧ c.aids.length ≤ 255 ∧
      ∀ e ∈ c.aids, 2 ≤ e.1.length ∧ e.1.length ≤ 32

/-- R62, R63: `unhex` of `hex` gives the bytes back, and a text `unhex` defines has two characters for each byte. -/
def Obligations.HexTextRoundTrip : Prop :=
  (∀ x : Bytes, unhex (hex x) = some x) ∧ ∀ text x : Bytes, unhex text = some x → text.length = 2 * x.length

/-- R370, R372: an event at one instance leaves every other instance as it is, and what it does to its own instance
depends on that instance alone. (Two instances of one stream draw alike, which is the model's choice: log entry 19.) -/
def Obligations.InstancesShareNothing : Prop :=
  ∀ (sys : System) (k : Nat) (e : HostEvent),
    (∀ j, j ≠ k → (sys.after k e)[j]? = sys[j]?) ∧ (sys.after k e)[k]? = sys[k]?.map (Instance.after e)

/-! ### The AT host interface -/

/-- R304: a line of a keyword, `=` and anything, ending in `=?`, is answered `OK` and changes nothing. -/
def Obligations.CapabilityQueryHasNoEffect : Prop :=
  ∀ (kw : AtKeyword) (args : Bytes) (p : Nat) (s : State), (args = [] ∨ args.head? = some eqSign) →
    atLine p (kw.text ++ args ++ [eqSign, questionMark]) s = some ([okLine], s)

/-- R315: a line that is not malformed and not a query issues a well-formed frame of opcode 0x01 to 0x06, and the
response is never `ERR_FRAME`, `ERR_INVALID_LENGTH` or `ERR_CIPHER_UNAVAILABLE`. -/
def Obligations.AdapterIssuesOnlyGoodFrames : Prop :=
  ∀ (line : Bytes) (kw : AtKeyword) (i : Instr) (s : State), atParse line = .issue kw i →
    decode (encode i) = .ok i ∧ 0x01 ≤ (opcodeOf i).toNat ∧ (opcodeOf i).toNat ≤ 0x06 ∧
      ∃ rc payload, responseOf i s = some (rc :: payload) ∧ rc ≠ 0x01 ∧ rc ≠ 0x05 ∧ rc ≠ 0x06

/-- R302, R316: on an instance with no command pending, a line answered `ERROR` leaves the configuration, the session
table, the id counter, every port `Idle` and, from states with `WORK` empty, `WORK` unchanged: the whole of `S`
(R22). -/
def Obligations.ErrorRepliesLeaveTheStateUnchanged : Prop :=
  ∀ (line : Bytes) (p : Nat) (s t : State), s.allIdle = true → s.work = .cleared →
    atLine p line s = some ([errorLine], t) →
    t.cfg = s.cfg ∧ t.sess = s.sess ∧ t.nextId = s.nextId ∧ t.work = s.work ∧ t.allIdle = true ∧
      t.ports.length = s.ports.length

/-- R310, R311: on an instance with no command pending, an `AT+CGLA` line whose APDU the card answers with `card` is
replied the count of hexadecimal characters and the uppercase text, then `OK`, and no session changes. -/
def Obligations.CglaReplyRendersTheCardResponse : Prop :=
  ∀ (line card : Bytes) (i : Instr) (p : Nat) (s : State), s.allIdle = true → p < s.ports.length →
    atParse line = .issue .cgla i → responseOf i s = some (0x00 :: lv2 card) →
    ∃ t, t.sess = s.sess ∧ t.nextId = s.nextId ∧ atLine p line s =
      some ([ascii ['+', 'C', 'G', 'L', 'A', ':', ' '] ++ dec (2 * card.length) ++ [comma, quote] ++ hex card ++
        [quote], okLine], t)

/-! ### Instances and their first reset -/

/-- R8, R382, R385 (log entry 13 for the stop): an instance that was never reset answers nothing and no submission or
arbiter step starts it; a reset with an invalid record changes no instance; and the first reset with a valid record
starts an instance with the instance's own number of ports. -/
def Obligations.FirstResetStartsAnInstance : Prop :=
  ∀ (c : Instance) (r : ConfigRecord) (p : Nat) (frame : Bytes),
    (c.state = none → c.step = .fault .neverReset ∧ c.after (.submit p frame) = c ∧ c.after .serve = c) ∧
    (r.valid = false → c.after (.reset r) = c) ∧
    (c.state = none → r.valid = true → 0 < c.nPorts →
      ∃ s, c.after (.reset r) = { c with state := some s } ∧ boot c.nPorts c.stream r = some s ∧
        s.ports.length = c.nPorts)
end

