-- ==== Sys2Proof/Laws/Bytes.lean ====
section
/-! SUPPORT. What the operators on fixed-length byte strings give (R9 to R11, R192), through their list of bytes. -/

namespace Sys2Proof.Machine

@[simp] theorem toList_ofList {n : Nat} (l : Bytes) (h : l.length = n) : (ofList l h).toList = l := rfl

@[simp] theorem toList_bxor {n : Nat} (x y : B n) :
    (bxor x y).toList = List.zipWith (fun a b => a ^^^ b) x.toList y.toList := rfl

@[simp] theorem toList_bcat {m n : Nat} (x : B m) (y : B n) : (bcat x y).toList = x.toList ++ y.toList := rfl

@[simp] theorem length_toList {n : Nat} (x : B n) : x.toList.length = n := by simp

/-- Two byte strings of one length are equal where their bytes are. -/
theorem block_ext {n : Nat} {x y : B n} (h : ∀ i, i < n → x.toList.getD i 0 = y.toList.getD i 0) : x = y := by
  apply Vector.toList_inj.mp
  apply List.ext_getElem (by simp)
  intro i hx hy
  have hn : i < n := by simpa using hx
  simpa [List.getD_eq_getElem?_getD, Vector.getElem?_eq_getElem hn] using h i hn

/-- `X[off..off+n)` byte by byte (R10). -/
theorem getD_slice (x : Bytes) (off n i : Nat) (h : i < n) :
    (slice x off n : B n).toList.getD i 0 = x.getD (off + i) 0 := by
  simp [slice, List.getD_eq_getElem?_getD, h]

/-- A fixed-length string read out of itself. -/
@[simp] theorem fixed_toList {n : Nat} (x : B n) : fixed n x.toList = x :=
  block_ext fun i h => by rw [fixed, getD_slice _ _ _ _ h, Nat.zero_add]

/-- `(X ⊕ Y)[i] = X[i] xor Y[i]` (R11). -/
theorem getD_bxor {n : Nat} (x y : B n) (i : Nat) (h : i < n) :
    (bxor x y).toList.getD i 0 = x.toList.getD i 0 ^^^ y.toList.getD i 0 := by
  have hx : i < x.toList.length := by simpa using h
  have hy : i < y.toList.length := by simpa using h
  simp [List.getD_eq_getElem?_getD, h]

theorem bxor_comm {n : Nat} (x y : B n) : bxor x y = bxor y x :=
  block_ext fun i h => by rw [getD_bxor _ _ _ h, getD_bxor _ _ _ h, BitVec.xor_comm]

theorem bxor_assoc {n : Nat} (x y z : B n) : bxor (bxor x y) z = bxor x (bxor y z) :=
  block_ext fun i h => by
    rw [getD_bxor _ _ _ h, getD_bxor _ _ _ h, getD_bxor _ _ _ h, getD_bxor _ _ _ h, BitVec.xor_assoc]

/-- Xoring the same string twice gives the other one back. -/
@[simp] theorem bxor_cancel {n : Nat} (x y : B n) : bxor (bxor x y) y = x :=
  block_ext fun i h => by
    rw [getD_bxor _ _ _ h, getD_bxor _ _ _ h, BitVec.xor_assoc, BitVec.xor_self, BitVec.xor_zero]

/-- `PLACE(X, k)[(i + k) mod 16] = X[i]` (R192). -/
theorem getD_place (x : B 16) (k i : Nat) (hk : k < 16) (hi : i < 16) :
    (place x k).toList.getD ((i + k) % 16) 0 = x.toList.getD i 0 := by
  have hlt : (i + k) % 16 < 16 := Nat.mod_lt _ (by decide)
  have back : ((i + k) % 16 + 16 - k) % 16 = i := by omega
  simp [place, List.getD_eq_getElem?_getD, hlt, back]

end Sys2Proof.Machine
end

