-- ==== Sys2Proof/Laws/Session.lean ====
section
/-! SUPPORT. What each operation on the session table does, said once (`44_session.md`). -/

namespace Sys2Proof.Machine

@[simp] theorem slots_empty : SessionTable.empty.openSlots = [] := rfl

@[simp] theorem inUse_empty : SessionTable.empty.inUse = [] := rfl

/-- An open slot is valid. -/
theorem valid_of_mem_openSlots {t : SessionTable} {k : Slot} (h : k ∈ t.openSlots) : k.valid = true := by
  simpa using (List.mem_filter.mp h).2

/-- At most four sessions are open (R31 a). -/
theorem openCount_le (t : SessionTable) : t.openCount ≤ 4 :=
  Nat.le_trans (List.length_filter_le _ _) (by simp [SessionTable.slots])

/-- The lookup reads the open sessions only. -/
theorem find_eq (id : U16) (t : SessionTable) : t.find id = t.openSlots.find? fun k => k.id == id := by
  simp [SessionTable.find, SessionTable.openSlots, List.find?_filter]
  rfl

/-- A found slot is an open session of the id (R275). -/
theorem mem_of_find {t : SessionTable} {id : U16} {k : Slot} (h : t.find id = some k) :
    k ∈ t.openSlots ∧ k.id = id := by
  rw [find_eq] at h
  exact ⟨List.mem_of_find?_eq_some h, by simpa using List.find?_some h⟩

/-- No slot is found exactly for the ids not in use (R275). -/
theorem find_eq_none {t : SessionTable} {id : U16} : t.find id = none ↔ id ∉ t.inUse := by
  rw [find_eq, List.find?_eq_none]
  simp [SessionTable.inUse]

/-- Where ids are distinct, the slot found is the one open session of the id (R31 b, R275). -/
theorem find_eq_some_iff {t : SessionTable} {id : U16} {k : Slot} (hd : t.inUse.Nodup) :
    t.find id = some k ↔ k ∈ t.openSlots ∧ k.id = id := by
  refine ⟨mem_of_find, fun ⟨hk, hid⟩ => ?_⟩
  cases hf : t.find id with
  | none => exact absurd (List.mem_map.mpr ⟨k, hk, hid⟩) (find_eq_none.mp hf)
  | some k' =>
    obtain ⟨hk', hid'⟩ := mem_of_find hf
    rw [List.inj_on_of_nodup_map hd hk' hk (hid'.trans hid.symm)]

/-- A new session joins the open ones, where one slot is free (R273). -/
theorem openSlots_put (t : SessionTable) (k : Slot) (hk : k.valid = true) (hc : t.openCount < 4) :
    (t.put k).openSlots.Perm (k :: t.openSlots) := by
  obtain ⟨a, b, c, d⟩ := t
  simp only [SessionTable.openCount, SessionTable.openSlots, SessionTable.slots] at *
  unfold SessionTable.put
  cases ha : a.valid <;> cases hb : b.valid <;> cases hc' : c.valid <;> cases hd : d.valid <;>
    simp_all [List.Perm.swap] <;>
    first
      | exact (List.perm_middle (l₁ := [a, b, c]) (l₂ := [])).trans (by simp)
      | exact List.perm_middle (l₁ := [a, b])

/-- A close leaves exactly the other sessions open, where ids are distinct (R274). -/
theorem openSlots_close (t : SessionTable) (id : U16) (hd : t.inUse.Nodup) :
    (t.close id).openSlots = t.openSlots.filter fun k => k.id != id := by
  obtain ⟨a, b, c, d⟩ := t
  simp only [SessionTable.inUse, SessionTable.openSlots, SessionTable.slots] at *
  unfold SessionTable.close
  cases ha : a.valid <;> cases hb : b.valid <;> cases hc : c.valid <;> cases hd' : d.valid <;>
    by_cases h0 : a.id = id <;> by_cases h1 : b.id = id <;> by_cases h2 : c.id = id <;>
    by_cases h3 : d.id = id <;> simp_all [Slot.closed]

/-- Closing an id that is not in use changes nothing (R274). -/
theorem close_of_not_inUse (t : SessionTable) (id : U16) (h : id ∉ t.inUse) : t.close id = t := by
  have off : ∀ k ∈ t.slots, (k.valid && k.id == id) = false := by
    rw [← find_eq_none, SessionTable.find, List.find?_eq_none] at h
    exact fun k hk => by simpa using h k hk
  have h0 := off t.slot0 (by simp [SessionTable.slots])
  have h1 := off t.slot1 (by simp [SessionTable.slots])
  have h2 := off t.slot2 (by simp [SessionTable.slots])
  have h3 := off t.slot3 (by simp [SessionTable.slots])
  simp [SessionTable.close, h0, h1, h2, h3]

/-- The registry entry found has the AID that was asked for (R271). -/
theorem mem_of_findAid {cfg : CardConfig} {aid : Bytes} {e : AidEntry} (h : cfg.findAid aid = some e) :
    e ∈ cfg.aids ∧ e.aid = aid :=
  ⟨List.mem_of_find?_eq_some h, by simpa using List.find?_some h⟩

/-- The successor of an id in range is in range (R272). -/
theorem succId_ge (v : U16) (h : Config.sessionIdBase ≤ v) : Config.sessionIdBase ≤ succId v := by
  unfold succId
  split
  · exact BitVec.le_refl _
  · rename_i hne
    have : v.toNat ≠ 65535 := fun hv => hne (BitVec.eq_of_toNat_eq hv)
    have hlt := v.isLt
    have h' : 257 ≤ v.toNat := by simpa [Config.sessionIdBase, BitVec.le_def] using h
    have : (v + 1).toNat = v.toNat + 1 := by
      rw [BitVec.toNat_add]
      exact Nat.mod_eq_of_lt (by simp; omega)
    show (257 : U16).toNat ≤ (v + 1).toNat
    simp
    omega

/-- Allocation from a candidate in range stays in range (R272). -/
theorem allocId_ge (used : List U16) (fuel : Nat) (id : U16) (h : Config.sessionIdBase ≤ id) :
    Config.sessionIdBase ≤ allocId used fuel id := by
  induction fuel generalizing id with
  | zero => exact h
  | succ n ih =>
    unfold allocId
    split
    · exact ih _ (succId_ge id h)
    · exact h

/-- Allocation steps along the successors: it skips ids in use only, and stops at an id not in use or when its fuel is
spent (R272). -/
theorem allocId_cases (used : List U16) (fuel : Nat) (id : U16) :
    ∃ n, n ≤ fuel ∧ allocId used fuel id = succId^[n] id ∧ (∀ m, m < n → succId^[m] id ∈ used) ∧
      (n < fuel → succId^[n] id ∉ used) := by
  induction fuel generalizing id with
  | zero => exact ⟨0, by simp [allocId]⟩
  | succ fuel ih =>
    by_cases h : id ∈ used
    · obtain ⟨n, hn, he, hm, hs⟩ := ih (succId id)
      refine ⟨n + 1, by omega, by simp [allocId, h, he], fun m hlt => ?_, fun hlt => hs (by omega)⟩
      cases m with
      | zero => exact h
      | succ m => exact hm m (by omega)
    · exact ⟨0, by omega, by simp [allocId, h], by simp, fun _ => h⟩

end Sys2Proof.Machine
end

