-- ==== Sys2Proof/Laws/State.lean ====
section
/-! SUPPORT. One lemma per field of State and per update: what the update leaves in the field. -/

namespace Sys2Proof.Machine

@[simp] theorem State.finish_cfg (r : Response) (s : State) : (s.finish r).cfg = s.cfg := rfl
@[simp] theorem State.finish_sess (r : Response) (s : State) : (s.finish r).sess = s.sess := rfl
@[simp] theorem State.finish_nextId (r : Response) (s : State) : (s.finish r).nextId = s.nextId := rfl
@[simp] theorem State.finish_work (r : Response) (s : State) : (s.finish r).work = .cleared := rfl
@[simp] theorem State.finish_ports (r : Response) (s : State) : (s.finish r).ports = s.ports := rfl
@[simp] theorem State.finish_out (r : Response) (s : State) : (s.finish r).out = some r.frame := rfl
@[simp] theorem State.finish_served (r : Response) (s : State) : (s.finish r).served = s.served := rfl
@[simp] theorem State.finish_submitted (r : Response) (s : State) : (s.finish r).submitted = s.submitted := rfl
@[simp] theorem State.finish_fsCalls (r : Response) (s : State) : (s.finish r).fsCalls = s.fsCalls := rfl
@[simp] theorem State.finish_stream (r : Response) (s : State) : (s.finish r).stream = s.stream := rfl

@[simp] theorem State.respond_cfg (payload : Bytes) (s : State) : (s.respond payload).cfg = s.cfg := rfl
@[simp] theorem State.respond_sess (payload : Bytes) (s : State) : (s.respond payload).sess = s.sess := rfl
@[simp] theorem State.respond_nextId (payload : Bytes) (s : State) : (s.respond payload).nextId = s.nextId := rfl
@[simp] theorem State.respond_work (payload : Bytes) (s : State) : (s.respond payload).work = .cleared := rfl
@[simp] theorem State.respond_ports (payload : Bytes) (s : State) : (s.respond payload).ports = s.ports := rfl
@[simp] theorem State.respond_out (payload : Bytes) (s : State) :
    (s.respond payload).out = some (0x00 :: payload) := rfl
@[simp] theorem State.respond_served (payload : Bytes) (s : State) : (s.respond payload).served = s.served := rfl
@[simp] theorem State.respond_submitted (payload : Bytes) (s : State) :
    (s.respond payload).submitted = s.submitted := rfl
@[simp] theorem State.respond_fsCalls (payload : Bytes) (s : State) : (s.respond payload).fsCalls = s.fsCalls := rfl
@[simp] theorem State.respond_stream (payload : Bytes) (s : State) : (s.respond payload).stream = s.stream := rfl

@[simp] theorem State.raise_cfg (e : ErrorCode) (s : State) : (s.raise e).cfg = s.cfg := rfl
@[simp] theorem State.raise_sess (e : ErrorCode) (s : State) : (s.raise e).sess = s.sess := rfl
@[simp] theorem State.raise_nextId (e : ErrorCode) (s : State) : (s.raise e).nextId = s.nextId := rfl
@[simp] theorem State.raise_work (e : ErrorCode) (s : State) : (s.raise e).work = .cleared := rfl
@[simp] theorem State.raise_ports (e : ErrorCode) (s : State) : (s.raise e).ports = s.ports := rfl
@[simp] theorem State.raise_out (e : ErrorCode) (s : State) : (s.raise e).out = some [e.rc] := rfl
@[simp] theorem State.raise_served (e : ErrorCode) (s : State) : (s.raise e).served = s.served := rfl
@[simp] theorem State.raise_submitted (e : ErrorCode) (s : State) : (s.raise e).submitted = s.submitted := rfl
@[simp] theorem State.raise_fsCalls (e : ErrorCode) (s : State) : (s.raise e).fsCalls = s.fsCalls := rfl
@[simp] theorem State.raise_stream (e : ErrorCode) (s : State) : (s.raise e).stream = s.stream := rfl

@[simp] theorem State.withWork_cfg (w : Working) (s : State) : (s.withWork w).cfg = s.cfg := rfl
@[simp] theorem State.withWork_sess (w : Working) (s : State) : (s.withWork w).sess = s.sess := rfl
@[simp] theorem State.withWork_nextId (w : Working) (s : State) : (s.withWork w).nextId = s.nextId := rfl
@[simp] theorem State.withWork_work (w : Working) (s : State) : (s.withWork w).work = w := rfl
@[simp] theorem State.withWork_ports (w : Working) (s : State) : (s.withWork w).ports = s.ports := rfl
@[simp] theorem State.withWork_out (w : Working) (s : State) : (s.withWork w).out = s.out := rfl
@[simp] theorem State.withWork_served (w : Working) (s : State) : (s.withWork w).served = s.served := rfl
@[simp] theorem State.withWork_submitted (w : Working) (s : State) : (s.withWork w).submitted = s.submitted := rfl
@[simp] theorem State.withWork_fsCalls (w : Working) (s : State) : (s.withWork w).fsCalls = s.fsCalls := rfl
@[simp] theorem State.withWork_stream (w : Working) (s : State) : (s.withWork w).stream = s.stream := rfl

@[simp] theorem State.cardRespond_cfg (card : Bytes) (s : State) : (s.cardRespond card).cfg = s.cfg := rfl
@[simp] theorem State.cardRespond_sess (card : Bytes) (s : State) : (s.cardRespond card).sess = s.sess := rfl
@[simp] theorem State.cardRespond_nextId (card : Bytes) (s : State) : (s.cardRespond card).nextId = s.nextId := rfl
@[simp] theorem State.cardRespond_work (card : Bytes) (s : State) : (s.cardRespond card).work = .cleared := rfl
@[simp] theorem State.cardRespond_ports (card : Bytes) (s : State) : (s.cardRespond card).ports = s.ports := rfl
@[simp] theorem State.cardRespond_out (card : Bytes) (s : State) :
    (s.cardRespond card).out = some (0x00 :: lv2 card) := rfl
@[simp] theorem State.cardRespond_served (card : Bytes) (s : State) : (s.cardRespond card).served = s.served := rfl
@[simp] theorem State.cardRespond_submitted (card : Bytes) (s : State) :
    (s.cardRespond card).submitted = s.submitted := rfl
@[simp] theorem State.cardRespond_fsCalls (card : Bytes) (s : State) : (s.cardRespond card).fsCalls = s.fsCalls := rfl
@[simp] theorem State.cardRespond_stream (card : Bytes) (s : State) : (s.cardRespond card).stream = s.stream := rfl

@[simp] theorem State.cardStatus_cfg (sw : StatusWord) (s : State) : (s.cardStatus sw).cfg = s.cfg := rfl
@[simp] theorem State.cardStatus_sess (sw : StatusWord) (s : State) : (s.cardStatus sw).sess = s.sess := rfl
@[simp] theorem State.cardStatus_nextId (sw : StatusWord) (s : State) : (s.cardStatus sw).nextId = s.nextId := rfl
@[simp] theorem State.cardStatus_work (sw : StatusWord) (s : State) : (s.cardStatus sw).work = .cleared := rfl
@[simp] theorem State.cardStatus_ports (sw : StatusWord) (s : State) : (s.cardStatus sw).ports = s.ports := rfl
@[simp] theorem State.cardStatus_out (sw : StatusWord) (s : State) :
    (s.cardStatus sw).out = some (0x00 :: lv2 sw.bytes) := rfl
@[simp] theorem State.cardStatus_served (sw : StatusWord) (s : State) : (s.cardStatus sw).served = s.served := rfl
@[simp] theorem State.cardStatus_submitted (sw : StatusWord) (s : State) :
    (s.cardStatus sw).submitted = s.submitted := rfl
@[simp] theorem State.cardStatus_fsCalls (sw : StatusWord) (s : State) : (s.cardStatus sw).fsCalls = s.fsCalls := rfl
@[simp] theorem State.cardStatus_stream (sw : StatusWord) (s : State) : (s.cardStatus sw).stream = s.stream := rfl

@[simp] theorem State.openSession_cfg (e : AidEntry) (s : State) : (s.openSession e).cfg = s.cfg := rfl
@[simp] theorem State.openSession_sess (e : AidEntry) (s : State) :
    (s.openSession e).sess = s.sess.put ⟨true, s.candidateId, e.aid, e.type⟩ := rfl
@[simp] theorem State.openSession_nextId (e : AidEntry) (s : State) :
    (s.openSession e).nextId = succId s.candidateId := rfl
@[simp] theorem State.openSession_work (e : AidEntry) (s : State) : (s.openSession e).work = s.work := rfl
@[simp] theorem State.openSession_ports (e : AidEntry) (s : State) : (s.openSession e).ports = s.ports := rfl
@[simp] theorem State.openSession_out (e : AidEntry) (s : State) : (s.openSession e).out = s.out := rfl
@[simp] theorem State.openSession_served (e : AidEntry) (s : State) : (s.openSession e).served = s.served := rfl
@[simp] theorem State.openSession_submitted (e : AidEntry) (s : State) :
    (s.openSession e).submitted = s.submitted := rfl
@[simp] theorem State.openSession_fsCalls (e : AidEntry) (s : State) : (s.openSession e).fsCalls = s.fsCalls := rfl
@[simp] theorem State.openSession_stream (e : AidEntry) (s : State) : (s.openSession e).stream = s.stream := rfl

@[simp] theorem State.closeSession_cfg (id : U16) (s : State) : (s.closeSession id).cfg = s.cfg := rfl
@[simp] theorem State.closeSession_sess (id : U16) (s : State) : (s.closeSession id).sess = s.sess.close id := rfl
@[simp] theorem State.closeSession_nextId (id : U16) (s : State) : (s.closeSession id).nextId = s.nextId := rfl
@[simp] theorem State.closeSession_work (id : U16) (s : State) : (s.closeSession id).work = s.work := rfl
@[simp] theorem State.closeSession_ports (id : U16) (s : State) : (s.closeSession id).ports = s.ports := rfl
@[simp] theorem State.closeSession_out (id : U16) (s : State) : (s.closeSession id).out = s.out := rfl
@[simp] theorem State.closeSession_served (id : U16) (s : State) : (s.closeSession id).served = s.served := rfl
@[simp] theorem State.closeSession_submitted (id : U16) (s : State) : (s.closeSession id).submitted = s.submitted := rfl
@[simp] theorem State.closeSession_fsCalls (id : U16) (s : State) : (s.closeSession id).fsCalls = s.fsCalls := rfl
@[simp] theorem State.closeSession_stream (id : U16) (s : State) : (s.closeSession id).stream = s.stream := rfl

@[simp] theorem State.countFileCall_cfg (s : State) : (s.countFileCall).cfg = s.cfg := rfl
@[simp] theorem State.countFileCall_sess (s : State) : (s.countFileCall).sess = s.sess := rfl
@[simp] theorem State.countFileCall_nextId (s : State) : (s.countFileCall).nextId = s.nextId := rfl
@[simp] theorem State.countFileCall_work (s : State) : (s.countFileCall).work = s.work := rfl
@[simp] theorem State.countFileCall_ports (s : State) : (s.countFileCall).ports = s.ports := rfl
@[simp] theorem State.countFileCall_out (s : State) : (s.countFileCall).out = s.out := rfl
@[simp] theorem State.countFileCall_served (s : State) : (s.countFileCall).served = s.served := rfl
@[simp] theorem State.countFileCall_submitted (s : State) : (s.countFileCall).submitted = s.submitted := rfl
@[simp] theorem State.countFileCall_fsCalls (s : State) : (s.countFileCall).fsCalls = s.fsCalls + 1 := rfl
@[simp] theorem State.countFileCall_stream (s : State) : (s.countFileCall).stream = s.stream := rfl

@[simp] theorem State.deliver_cfg (p : Nat) (s : State) : (s.deliver p).cfg = s.cfg := rfl
@[simp] theorem State.deliver_sess (p : Nat) (s : State) : (s.deliver p).sess = s.sess := rfl
@[simp] theorem State.deliver_nextId (p : Nat) (s : State) : (s.deliver p).nextId = s.nextId := rfl
@[simp] theorem State.deliver_work (p : Nat) (s : State) : (s.deliver p).work = s.work := rfl
@[simp] theorem State.deliver_ports (p : Nat) (s : State) : (s.deliver p).ports = s.ports.set p ⟨.idle, s.out⟩ := rfl
@[simp] theorem State.deliver_out (p : Nat) (s : State) : (s.deliver p).out = none := rfl
@[simp] theorem State.deliver_served (p : Nat) (s : State) : (s.deliver p).served = s.served + 1 := rfl
@[simp] theorem State.deliver_submitted (p : Nat) (s : State) : (s.deliver p).submitted = s.submitted := rfl
@[simp] theorem State.deliver_fsCalls (p : Nat) (s : State) : (s.deliver p).fsCalls = s.fsCalls := rfl
@[simp] theorem State.deliver_stream (p : Nat) (s : State) : (s.deliver p).stream = s.stream := rfl

@[simp] theorem State.presentFirst_cfg (frame : Bytes) (s : State) : (s.presentFirst frame).cfg = s.cfg := rfl
@[simp] theorem State.presentFirst_sess (frame : Bytes) (s : State) : (s.presentFirst frame).sess = s.sess := rfl
@[simp] theorem State.presentFirst_nextId (frame : Bytes) (s : State) : (s.presentFirst frame).nextId = s.nextId := rfl
@[simp] theorem State.presentFirst_work (frame : Bytes) (s : State) : (s.presentFirst frame).work = s.work := rfl
@[simp] theorem State.presentFirst_ports (frame : Bytes) (s : State) :
    (s.presentFirst frame).ports = ⟨.pending frame 0, none⟩ :: s.ports.drop 1 := rfl
@[simp] theorem State.presentFirst_out (frame : Bytes) (s : State) : (s.presentFirst frame).out = s.out := rfl
@[simp] theorem State.presentFirst_served (frame : Bytes) (s : State) : (s.presentFirst frame).served = s.served := rfl
@[simp] theorem State.presentFirst_submitted (frame : Bytes) (s : State) :
    (s.presentFirst frame).submitted = s.submitted := rfl
@[simp] theorem State.presentFirst_fsCalls (frame : Bytes) (s : State) :
    (s.presentFirst frame).fsCalls = s.fsCalls := rfl
@[simp] theorem State.presentFirst_stream (frame : Bytes) (s : State) :
    (s.presentFirst frame).stream = s.stream := rfl

end Sys2Proof.Machine
end

