-- ==== Sys2Proof/Laws/Exec.lean ====
section
/-! SUPPORT. What a command, a frame and an arbiter step can do, said once. -/

namespace Sys2Proof.Machine

/-- The four shapes of a command's effect: the response alone, an opened session, a closed session, a collaborator
call (R70). -/
inductive Effect (i : Instr) (s : State) : State → Prop where
  | response (r : Response) : Effect i s (s.finish r)
  | opened (aid : Bytes) (e : AidEntry) (hi : i = .openChannel aid) (room : s.sess.openCount < 4)
      (known : s.cfg.findAid aid = some e) :
      Effect i s ((s.openSession e).finish (.done (u16Bytes s.candidateId)))
  | closed (id : U16) (hi : i = .closeChannel id) : Effect i s ((s.closeSession id).finish (.done []))
  | called (id : U16) (cmd : Bytes) (hi : i = .fileAccess id cmd) (found : (s.sess.find id).isSome) :
      Effect i s (s.countFileCall.finish (.done (filePayload (fileAnswer s.stream s.fsCalls cmd))))

/-- The GSM path only answers. -/
theorem gsmPath_finish (body : Bytes) (s : State) : ∃ r, s.gsmPath body = s.finish r := by
  unfold State.gsmPath
  split
  · exact ⟨_, rfl⟩
  · split <;> exact ⟨_, rfl⟩

/-- The UMTS path only answers. -/
theorem umtsPath_finish (body : Bytes) (s : State) : ∃ r, s.umtsPath body = s.finish r := by
  unfold State.umtsPath
  split
  · exact ⟨_, rfl⟩
  · split
    · exact ⟨_, rfl⟩
    · split <;> exact ⟨_, rfl⟩

/-- The router only answers. -/
theorem routeApdu_finish (t : AppType) (apdu : Bytes) (s : State) : ∃ r, s.routeApdu t apdu = s.finish r := by
  unfold State.routeApdu
  split
  · split
    · exact ⟨_, rfl⟩
    · exact gsmPath_finish _ s
    · exact umtsPath_finish _ s
  · exact ⟨_, rfl⟩

/-- Every command answers a next state, by one of the four effects. -/
theorem exec_effect (i : Instr) (s : State) : ∃ t, exec i s = .next t ∧ Effect i s t := by
  have answers : ∀ t, (∃ r, t = s.finish r) → Effect i s t := by
    rintro _ ⟨r, rfl⟩
    exact .response r
  have next : ∀ t, exec i s = .next t → Effect i s t → ∃ t, exec i s = .next t ∧ Effect i s t :=
    fun t h e => ⟨t, h, e⟩
  cases i <;> refine next _ rfl ?_
  case listAids => exact answers _ ⟨_, rfl⟩
  case openChannel aid =>
    split
    · exact answers _ ⟨_, rfl⟩
    · rename_i room
      split
      · exact answers _ ⟨_, rfl⟩
      · rename_i e known
        exact .opened aid e rfl (by simpa [Config.maxLogicalChannels] using room) known
  case closeChannel id => exact .closed id rfl
  case lookup id => split <;> exact answers _ ⟨_, rfl⟩
  case apduExec id apdu =>
    split
    · exact answers _ ⟨_, rfl⟩
    · exact answers _ (routeApdu_finish _ _ s)
  case fileAccess id cmd =>
    split
    · exact answers _ ⟨_, rfl⟩
    · rename_i hk
      exact .called id cmd rfl (by simp [hk])
  case aesEncrypt key pt =>
    split
    · exact answers _ ⟨_, rfl⟩
    · split <;> exact answers _ ⟨_, rfl⟩
  case gsmAuth ki rand => split <;> exact answers _ ⟨_, rfl⟩
  case umtsAuth ki opc sqn rand autn =>
    split
    · exact answers _ ⟨_, rfl⟩
    · split <;> exact answers _ ⟨_, rfl⟩
  case classify hdr apptype =>
    split
    · split <;> exact answers _ ⟨_, rfl⟩
    · exact answers _ ⟨_, rfl⟩
  case authenticateGsm id body =>
    split
    · exact answers _ ⟨_, rfl⟩
    · split
      · exact answers _ (gsmPath_finish _ s)
      · exact answers _ ⟨_, rfl⟩
  case authenticateUmts id body =>
    split
    · exact answers _ ⟨_, rfl⟩
    · split
      · exact answers _ (umtsPath_finish _ s)
      · exact answers _ ⟨_, rfl⟩

/-- A frame answers a next state: a command's effect, or the response `ERR_FRAME` (R91). -/
theorem runFrame_next (frame : Bytes) (s : State) :
    ∃ t, runFrame frame s = .next t ∧ ((∃ i, decode frame = .ok i ∧ Effect i s t) ∨ t = s.raise .frame) := by
  unfold runFrame
  split
  · rename_i i hi
    obtain ⟨t, ht, he⟩ := exec_effect i s
    exact ⟨t, ht, .inl ⟨i, hi, he⟩⟩
  · exact ⟨_, rfl, .inr rfl⟩

/-- The fields no command writes: configuration, ports, the arbiter's counters and the stream (R29, R70). -/
theorem Effect.frame {i : Instr} {s t : State} (h : Effect i s t) :
    t.cfg = s.cfg ∧ t.ports = s.ports ∧ t.served = s.served ∧ t.submitted = s.submitted ∧ t.stream = s.stream ∧
      t.work = .cleared := by
  cases h <;> simp

/-- No command is chosen exactly where every port is idle. -/
theorem selectPort_none {n : Nat} {ports : List Port} :
    selectPort n ports = none ↔ ∀ p ∈ ports, p.status = .idle := by
  induction ports generalizing n with
  | nil => simp [selectPort]
  | cons p rest ih =>
    obtain ⟨status, reply⟩ := p
    cases status <;> simp [selectPort, ih]

/-- The command chosen is pending on its port, its `due` is the least, and the lowest port wins a tie. -/
theorem selectPort_some {n : Nat} {ports : List Port} {c : Selected} (h : selectPort n ports = some c) :
    n ≤ c.port ∧ (∃ r, ports[c.port - n]? = some ⟨.pending c.frame c.due, r⟩) ∧
      ∀ q frame due r, ports[q]? = some ⟨.pending frame due, r⟩ →
        c.due < due ∨ c.due = due ∧ c.port ≤ n + q := by
  induction ports generalizing n c with
  | nil => simp [selectPort] at h
  | cons p rest ih =>
    obtain ⟨status, reply⟩ := p
    have tail : ∀ {c'}, selectPort (n + 1) rest = some c' →
        n + 1 ≤ c'.port ∧ (∃ r, (⟨status, reply⟩ :: rest)[c'.port - n]? = some ⟨.pending c'.frame c'.due, r⟩) ∧
        ∀ q frame due r, rest[q]? = some ⟨.pending frame due, r⟩ →
          c'.due < due ∨ c'.due = due ∧ c'.port ≤ n + (q + 1) := by
      intro c' hc
      obtain ⟨h1, ⟨r, h2⟩, h3⟩ := ih hc
      refine ⟨h1, ⟨r, ?_⟩, fun q frame due r hq => ?_⟩
      · rw [show c'.port - n = (c'.port - (n + 1)) + 1 by omega, List.getElem?_cons_succ]
        exact h2
      · have := h3 q frame due r hq
        omega
    cases status with
    | idle =>
      obtain ⟨h1, h2, h3⟩ := tail h
      refine ⟨by omega, h2, fun q frame due r hq => ?_⟩
      cases q with
      | zero => simp at hq
      | succ q => exact h3 q frame due r (by simpa using hq)
    | pending f d =>
      have h := Option.some.inj h
      cases hs : selectPort (n + 1) rest with
      | none =>
        rw [hs] at h
        subst h
        refine ⟨Nat.le_refl _, ⟨reply, by simp [Selected.sooner]⟩, fun q frame due r hq => ?_⟩
        cases q with
        | zero => simp at hq; simp [Selected.sooner, hq]
        | succ q => exact absurd (selectPort_none.mp hs _ (List.mem_of_getElem? (by simpa using hq))) (by simp)
      | some later =>
        rw [hs] at h
        obtain ⟨h1, h2, h3⟩ := tail hs
        by_cases hd : later.due < d
        · obtain rfl : later = c := by simpa [Selected.sooner, hd] using h
          refine ⟨by omega, h2, fun q frame due r hq => ?_⟩
          cases q with
          | zero => simp at hq; omega
          | succ q => exact h3 q frame due r (by simpa using hq)
        · obtain rfl : ⟨n, f, d⟩ = c := by simpa [Selected.sooner, hd] using h
          refine ⟨Nat.le_refl _, ⟨reply, by simp⟩, fun q frame due r hq => ?_⟩
          cases q with
          | zero => simp at hq; simp [hq]
          | succ q =>
            have := h3 q frame due r (by simpa using hq)
            simp only
            omega

end Sys2Proof.Machine
end

