-- ==== Sys2Proof/Laws/Frame.lean ====
section
/-! SUPPORT. Reading a field that was just written (R91), and the field list of a command (R92). -/

namespace Sys2Proof

@[simp] theorem u16OfBytes_u16Bytes (v : U16) :
    u16OfBytes (v.extractLsb' 8 8) (v.extractLsb' 0 8) = v := by
  have := v.isLt
  apply BitVec.eq_of_toNat_eq
  simp only [u16OfBytes, BitVec.toNat_ofNat, BitVec.extractLsb'_toNat, Nat.shiftRight_eq_div_pow]
  omega

@[simp] theorem splitBytes_append (x rest : Bytes) : splitBytes x.length (x ++ rest) = some (x, rest) := by
  simp [splitBytes]

/-- The kind of a field (R91). -/
def Field.kind : Field → FieldKind
  | .u8 _ => .u8
  | .u16 _ => .u16
  | .lv1 _ => .lv1
  | .lv2 _ => .lv2

/-- The field's value fits its length field (R91). -/
def Field.fits : Field → Bool
  | .u8 _ => true
  | .u16 _ => true
  | .lv1 x => fitsLV1 x
  | .lv2 x => fitsLV2 x

/-- A field that fits is read back from its bytes, and what follows it is left (R91). -/
theorem readField_writeField (f : Field) (rest : Bytes) (h : f.fits = true) :
    readField f.kind (writeField f ++ rest) = some (f, rest) := by
  cases f with
  | u8 v => rfl
  | u16 v => simp [Field.kind, writeField, u16Bytes, readField]
  | lv1 x =>
    have hx : x.length % 256 = x.length := Nat.mod_eq_of_lt (by simpa [Field.fits, fitsLV1] using h)
    simp [Field.kind, writeField, lv1, readField, hx]
  | lv2 x =>
    have hx : x.length % 65536 = x.length := Nat.mod_eq_of_lt (by simpa [Field.fits, fitsLV2] using h)
    simp [Field.kind, writeField, lv2, u16Bytes, readField, hx]

/-- Fields that fit are read back from their bytes (R91). -/
theorem readFields_writeFields (fs : List Field) (rest : Bytes) (h : ∀ f ∈ fs, f.fits = true) :
    readFields (fs.map Field.kind) (fs.flatMap writeField ++ rest) = some (fs, rest) := by
  induction fs with
  | nil => rfl
  | cons f fs ih =>
    simp only [List.map_cons, List.flatMap_cons, List.append_assoc, readFields,
      readField_writeField f _ (h f (by simp)), Option.bind_eq_bind, Option.bind_some,
      ih fun g hg => h g (by simp [hg])]
    rfl

/-- The opcode map gives a command's opcode the kinds of the command's fields (R92, R93). -/
theorem opcodeFormat_opcodeOf (i : Instr) : opcodeFormat (opcodeOf i) = some ((fieldsOf i).map Field.kind) := by
  cases i <;> rfl

/-- The operands of a well-formed command fit their fields. -/
theorem fields_fit (i : Instr) (h : i.wf = true) : ∀ f ∈ fieldsOf i, f.fits = true := by
  cases i <;> simp_all [Instr.wf, fieldsOf, Field.fits]

end Sys2Proof
end

