-- ==== Sys2Proof/Laws/PerInstr.lean ====
section
/-! SUPPORT. Statements made per command: the total length of a command's frame, as the format table of R92 gives it. -/

namespace Sys2Proof

/-- The total length R92 gives a command's frame. -/
def Instr.frameLength : Instr → Nat
  | .listAids => 1
  | .openChannel aid => 2 + aid.length
  | .closeChannel _ => 3
  | .lookup _ => 3
  | .apduExec _ apdu => 5 + apdu.length
  | .fileAccess _ cmd => 5 + cmd.length
  | .aesEncrypt key pt => 3 + key.length + pt.length
  | .gsmAuth ki rand => 3 + ki.length + rand.length
  | .umtsAuth ki opc sqn rand autn => 6 + (ki.length + opc.length + sqn.length + rand.length + autn.length)
  | .classify hdr _ => 3 + hdr.length
  | .authenticateGsm _ body => 10 + body.length
  | .authenticateUmts _ body => 10 + body.length

end Sys2Proof

namespace Sys2Proof.Laws

@[simp] theorem length_u16Bytes (v : U16) : (u16Bytes v).length = 2 := rfl

@[simp] theorem length_lv1 (x : Bytes) : (lv1 x).length = 1 + x.length := by
  simp [lv1, Nat.add_comm]

@[simp] theorem length_lv2 (x : Bytes) : (lv2 x).length = 2 + x.length := by
  simp [lv2]

/-- The frame of a command has the length R92 gives its format. -/
def FrameLength.Statement (i : Instr) : Prop := (encode i).length = i.frameLength

theorem FrameLength.listAids : FrameLength.Statement .listAids := rfl

theorem FrameLength.openChannel (aid : Bytes) : FrameLength.Statement (.openChannel aid) := by
  simp [Statement, encode, fieldsOf, writeField, Instr.frameLength]; omega

theorem FrameLength.closeChannel (id : U16) : FrameLength.Statement (.closeChannel id) := rfl

theorem FrameLength.lookup (id : U16) : FrameLength.Statement (.lookup id) := rfl

theorem FrameLength.apduExec (id : U16) (apdu : Bytes) : FrameLength.Statement (.apduExec id apdu) := by
  simp [Statement, encode, fieldsOf, writeField, Instr.frameLength]; omega

theorem FrameLength.fileAccess (id : U16) (cmd : Bytes) : FrameLength.Statement (.fileAccess id cmd) := by
  simp [Statement, encode, fieldsOf, writeField, Instr.frameLength]; omega

theorem FrameLength.aesEncrypt (key pt : Bytes) : FrameLength.Statement (.aesEncrypt key pt) := by
  simp [Statement, encode, fieldsOf, writeField, Instr.frameLength]; omega

theorem FrameLength.gsmAuth (ki rand : Bytes) : FrameLength.Statement (.gsmAuth ki rand) := by
  simp [Statement, encode, fieldsOf, writeField, Instr.frameLength]; omega

theorem FrameLength.umtsAuth (ki opc sqn rand autn : Bytes) :
    FrameLength.Statement (.umtsAuth ki opc sqn rand autn) := by
  simp [Statement, encode, fieldsOf, writeField, Instr.frameLength]; omega

theorem FrameLength.classify (hdr : Bytes) (apptype : Byte) : FrameLength.Statement (.classify hdr apptype) := by
  simp [Statement, encode, fieldsOf, writeField, Instr.frameLength]; omega

theorem FrameLength.authenticateGsm (id : U16) (body : Bytes) :
    FrameLength.Statement (.authenticateGsm id body) := by
  simp [Statement, encode, fieldsOf, writeField, Instr.frameLength, gsmHeader]; omega

theorem FrameLength.authenticateUmts (id : U16) (body : Bytes) :
    FrameLength.Statement (.authenticateUmts id body) := by
  simp [Statement, encode, fieldsOf, writeField, Instr.frameLength, umtsHeader]; omega

end Sys2Proof.Laws
end

