-- ==== Sys2Proof/Tests/Slice0.lean ====
section
/-! SUPPORT. Tests. Expected values come from `95_test_vectors.md` (the vector's name stands in the comment) or from
the encoding tables of `30_encoding.md`. The last part shows, for every statement with hypotheses, a state and operands
that meet them. -/

namespace Sys2Proof.Tests

open Sys2Proof.Machine

/-! ### Decoding: every row of the opcode table, and frames written out field by field (R91 to R93, R104) -/

theorem test_decode_list_aids : decodeTableWord 8 0b00000001 = some .listAids := by decide
theorem test_decode_open_channel : decodeTableWord 8 0b00000010 = some (.openChannel []) := by decide
theorem test_decode_close_channel : decodeTableWord 8 0b00000011 = some (.closeChannel 0) := by decide
theorem test_decode_lookup : decodeTableWord 8 0b00000100 = some (.lookup 0) := by decide
theorem test_decode_apdu_exec : decodeTableWord 8 0b00000101 = some (.apduExec 0 []) := by decide
theorem test_decode_file_access : decodeTableWord 8 0b00000110 = some (.fileAccess 0 []) := by decide
theorem test_decode_aes_encrypt : decodeTableWord 8 0b00010000 = some (.aesEncrypt [] []) := by decide
theorem test_decode_gsm_auth : decodeTableWord 8 0b00010001 = some (.gsmAuth [] []) := by decide
theorem test_decode_umts_auth : decodeTableWord 8 0b00010010 = some (.umtsAuth [] [] [] [] []) := by decide
theorem test_decode_classify : decodeTableWord 8 0b00010011 = some (.classify [] 0) := by decide
theorem test_decode_authenticate_gsm :
    decodeTableWord 40 0x0088008011 = some (.authenticateGsm 0 (List.replicate 17 0)) := by decide
theorem test_decode_authenticate_umts :
    decodeTableWord 40 0x0088008122 = some (.authenticateUmts 0 (List.replicate 34 0)) := by decide
theorem test_decode_reserved_word : decodeTableWord 8 0x07 = none := by decide
/-- The header of the table word read low byte first: the same command (log entry 8). -/
theorem test_decode_low_byte_first :
    decodeTableWord 40 0x1180008800 = some (.authenticateGsm 0 (List.replicate 17 0)) := by decide

theorem test_frame_close : (decode [0x03, 0x03, 0xE7]).toOption = some (.closeChannel 999) := by decide
theorem test_frame_apdu : (decode [0x05, 0x03, 0xE7, 0x00, 0x02, 0x00, 0x88]).toOption =
    some (.apduExec 999 [0x00, 0x88]) := by decide
theorem test_frame_umts : (decode [0x12, 1, 0xA1, 0, 2, 0xA3, 0xA4, 1, 0xA5, 1, 0xA6]).toOption =
    some (.umtsAuth [0xA1] [] [0xA3, 0xA4] [0xA5] [0xA6]) := by decide
theorem test_frame_aes : (decode [0x10, 1, 0xA1, 2, 0xA2, 0xA3]).toOption = some (.aesEncrypt [0xA1] [0xA2, 0xA3]) := by
  decide
theorem test_frame_authenticate_umts :
    (decode [0x05, 0x01, 0x01, 0x00, 0x06, 0x00, 0x88, 0x00, 0x81, 0x22, 0x10]).toOption =
      some (.authenticateUmts 0x0101 [0x10]) := by decide
theorem test_encode_classify : encode (.classify [0x00, 0x88, 0x00, 0x80, 0x11] 0x01) =
    [0x13, 0x05, 0x00, 0x88, 0x00, 0x80, 0x11, 0x01] := by decide
/-- S14. -/
theorem test_truncated_frame : runFrame [0x03, 0x01] State.reset = .next (State.reset.raise .frame) := rfl
/-- S14. -/
theorem test_trailing_byte : runFrame [0x01, 0x00] State.reset = .next (State.reset.raise .frame) := rfl

/-! ### Well-formedness: an ill-formed command for each check -/

/-- A byte string one longer than a `LV1` field holds. -/
def tooLong1 : Bytes := List.replicate 256 0
/-- A byte string one longer than a `LV2` field holds. -/
def tooLong2 : Bytes := List.replicate 65536 0

theorem test_wf_longest_lv1 : Instr.wf (.openChannel (List.replicate 255 0)) = true := by decide +kernel
theorem test_wf_lv1 : fitsLV1 tooLong1 = false := by decide +kernel
theorem test_wf_lv2 : fitsLV2 tooLong2 = false := by
  rw [fitsLV2, tooLong2, List.length_replicate]; rfl
theorem test_wf_lv2_header (header : Bytes) : fitsLV2 (header ++ tooLong2) = false := by
  rw [fitsLV2, tooLong2, List.length_append, List.length_replicate]; simp
theorem test_wf_apdu_gsm_header : Instr.wf (.apduExec 1 (gsmHeader ++ [0x10])) = false := by decide
theorem test_wf_apdu_umts_header : Instr.wf (.apduExec 1 umtsHeader) = false := by decide
theorem test_wf_open_channel : Instr.wf (.openChannel tooLong1) = false := by simp [Instr.wf, test_wf_lv1]
theorem test_wf_aes_key : Instr.wf (.aesEncrypt tooLong1 []) = false := by simp [Instr.wf, test_wf_lv1]
theorem test_wf_aes_block : Instr.wf (.aesEncrypt [] tooLong1) = false := by simp [Instr.wf, test_wf_lv1]
theorem test_wf_gsm_ki : Instr.wf (.gsmAuth tooLong1 []) = false := by simp [Instr.wf, test_wf_lv1]
theorem test_wf_gsm_rand : Instr.wf (.gsmAuth [] tooLong1) = false := by simp [Instr.wf, test_wf_lv1]
theorem test_wf_umts_ki : Instr.wf (.umtsAuth tooLong1 [] [] [] []) = false := by simp [Instr.wf, test_wf_lv1]
theorem test_wf_umts_opc : Instr.wf (.umtsAuth [] tooLong1 [] [] []) = false := by simp [Instr.wf, test_wf_lv1]
theorem test_wf_umts_sqn : Instr.wf (.umtsAuth [] [] tooLong1 [] []) = false := by simp [Instr.wf, test_wf_lv1]
theorem test_wf_umts_rand : Instr.wf (.umtsAuth [] [] [] tooLong1 []) = false := by simp [Instr.wf, test_wf_lv1]
theorem test_wf_umts_autn : Instr.wf (.umtsAuth [] [] [] [] tooLong1) = false := by simp [Instr.wf, test_wf_lv1]
theorem test_wf_classify : Instr.wf (.classify tooLong1 0) = false := by simp [Instr.wf, test_wf_lv1]
theorem test_wf_apdu_length : Instr.wf (.apduExec 1 tooLong2) = false := by simp [Instr.wf, test_wf_lv2]
theorem test_wf_file_access : Instr.wf (.fileAccess 1 tooLong2) = false := by simp [Instr.wf, test_wf_lv2]
theorem test_wf_authenticate_gsm : Instr.wf (.authenticateGsm 1 tooLong2) = false := test_wf_lv2_header _
theorem test_wf_authenticate_umts : Instr.wf (.authenticateUmts 1 tooLong2) = false := test_wf_lv2_header _

/-! ### States and operands of the tests -/

/-- The AID of the ISIM application of `CFG1`. -/
def isimAid : Bytes := [0xA0, 0x00, 0x00, 0x00, 0x87, 0x10, 0x04]
/-- The AID of the USIM application of `CFG1`. -/
def usimAid : Bytes := [0xA0, 0x00, 0x00, 0x00, 0x87, 0x10, 0x02]
/-- A free slot. -/
def noSlot : Slot := .free
/-- Session 257 on the ISIM application. -/
def isimSlot : Slot := ⟨true, 257, isimAid, .isim⟩
/-- Session 257 on the USIM application. -/
def usimSlot : Slot := ⟨true, 257, usimAid, .usim⟩
/-- Session 257 on an application of no context. -/
def otherSlot : Slot := ⟨true, 257, [0xA1], .other⟩
/-- `CFG1` with the given session in slot 0. -/
def withSlot (k : Slot) : State := { State.reset with sess := { SessionTable.empty with slot0 := k }, nextId := 258 }
/-- `CFG1` with session 257 on the ISIM application. -/
def onIsim : State := withSlot isimSlot
/-- `CFG1` with session 257 on the USIM application. -/
def onUsim : State := withSlot usimSlot
/-- A state with the cipher condition false (R28). -/
def noCipher (s : State) : State := { s with cfg := { s.cfg with cipherAvailable := false } }
/-- Four sessions open, as after step 4 of P2 with `CFG1` AIDs. -/
def fullState : State := { State.reset with
  sess := ⟨usimSlot, ⟨true, 258, isimAid, .isim⟩, ⟨true, 259, usimAid, .usim⟩, ⟨true, 260, isimAid, .isim⟩⟩
  nextId := 261 }
/-- A command of frame `f` pending on port 0. -/
def pendingOn (f : Bytes) (s : State) : State := { s with ports := [⟨.pending f 0, none⟩, .fresh] }

/-- `RAND1`. -/
def rand1 : B 16 :=
  #v[0x23, 0x55, 0x3C, 0xBE, 0x96, 0x37, 0xA8, 0x9D, 0x21, 0x8A, 0xE6, 0x4D, 0xAE, 0x47, 0xBF, 0x35]
/-- `AUTN_OK`. -/
def autnOk : B 16 :=
  #v[0x55, 0xF3, 0x28, 0xB4, 0x35, 0x77, 0xB9, 0xB9, 0x4A, 0x9F, 0xFA, 0xC3, 0x54, 0xDF, 0xAF, 0xB3]
/-- `AUTN_SYNC`. -/
def autnSync : B 16 :=
  #v[0x55, 0xF3, 0x28, 0xB4, 0x35, 0x78, 0xB9, 0xB9, 0x7B, 0xCD, 0x95, 0x43, 0x6E, 0xCE, 0xCB, 0xF8]
/-- `AUTN_BADMAC`. -/
def autnBadMac : B 16 :=
  #v[0x55, 0xF3, 0x28, 0xB4, 0x35, 0x77, 0xB9, 0xB9, 0x4A, 0x9F, 0xFA, 0xC3, 0x54, 0xDF, 0xAF, 0xB2]
/-- The body of `U_OK` with another AUTN. -/
def umtsBody (autn : B 16) : Bytes := 0x10 :: rand1.toList ++ 0x10 :: autn.toList
/-- The test-set-1 operands of UMTS_AUTH with an AUTN. -/
def umtsAuthWith (autn : B 16) : Instr :=
  .umtsAuth CardConfig.reference.ki.toList CardConfig.reference.opc.toList CardConfig.reference.sqn.toList
    rand1.toList autn.toList

/-! ### The AES unit -/

/-- A1. -/
theorem test_aes_a1 : responseOf (.aesEncrypt
      [0x00, 0x01, 0x02, 0x03, 0x04, 0x05, 0x06, 0x07, 0x08, 0x09, 0x0A, 0x0B, 0x0C, 0x0D, 0x0E, 0x0F]
      [0x00, 0x11, 0x22, 0x33, 0x44, 0x55, 0x66, 0x77, 0x88, 0x99, 0xAA, 0xBB, 0xCC, 0xDD, 0xEE, 0xFF]) State.reset =
    some [0x00, 0x69, 0xC4, 0xE0, 0xD8, 0x6A, 0x7B, 0x04, 0x30, 0xD8, 0xCD, 0xB7, 0x80, 0x70, 0xB4, 0xC5, 0x5A] := by
  decide +kernel
/-- A10: the width is checked before the cipher. -/
theorem test_aes_a10 : responseOf (.aesEncrypt (List.replicate 15 0) (List.replicate 16 0)) (noCipher State.reset) =
    some [0x05] := by decide
/-- The field arithmetic of section 2. -/
theorem test_gf_mul : gfMul 0x57 0x83 = 0xC1 ∧ gfMul 0x57 0x13 = 0xFE ∧ gfInv 0x53 = 0xCA ∧ sbox 0x53 = 0xED := by
  decide +kernel

/-! ### The GSM unit -/

/-- G2. -/
theorem test_gsm_g2 : responseOf (.gsmAuth (List.replicate 16 0) (List.replicate 12 0)) State.reset = some [0x05] := by
  decide
/-- G4: no cipher is needed. -/
theorem test_gsm_g4 (k r : Bytes) (hk : k.length = 16) (hr : r.length = 16) :
    responseOf (.gsmAuth k r) (noCipher State.reset) =
      some (0x00 :: (Config.comp128v1 (fixed 16 k) (fixed 16 r)).toList) := by
  simp [responseOf, exec, execGsmAuth, hk, hr, State.respond, State.finish, Response.frame]

/-! ### The UMTS unit -/

/-- M1. -/
theorem test_umts_m1 : responseOf (umtsAuthWith autnOk) State.reset = some ([0x00, 0x00] ++
    [0xA5, 0x42, 0x11, 0xD5, 0xE3, 0xBA, 0x50, 0xBF] ++
    [0xB4, 0x0B, 0xA9, 0xA3, 0xC5, 0x8B, 0x2A, 0x05, 0xBB, 0xF0, 0xD9, 0x87, 0xB2, 0x1B, 0xF8, 0xCB] ++
    [0xF7, 0x69, 0xBC, 0xD7, 0x51, 0x04, 0x46, 0x04, 0x12, 0x76, 0x72, 0x71, 0x1C, 0x6D, 0x34, 0x41]) := by
  decide +kernel
/-- M9: the width is checked before the cipher. -/
theorem test_umts_m9 : responseOf (.umtsAuth (List.replicate 16 0) (List.replicate 16 0) (List.replicate 5 0)
    (List.replicate 16 0) (List.replicate 16 0)) (noCipher State.reset) = some [0x05] := by decide

/-! ### The classifier -/

/-- K10: length before type. -/
theorem test_classify_k10 : responseOf (.classify [0x00, 0x88, 0x00, 0x80, 0x00] 0x00) State.reset =
    some [0x00, 0x00, 0x67, 0x00] := by decide
/-- K16. -/
theorem test_classify_k16 : responseOf (.classify [0x00, 0x88, 0x00, 0x80, 0x11] 0x03) State.reset = some [0x01] := by
  decide

/-! ### The session table -/

/-- S10. -/
theorem test_list_s10 : responseOf .listAids State.reset =
    some ([0x00, 0x02, 0x07] ++ usimAid ++ [0x01, 0x07] ++ isimAid ++ [0x02]) := by decide
/-- S1. -/
theorem test_open_s1 : responseOf (.openChannel isimAid) State.reset = some [0x00, 0x01, 0x01] ∧
    (stateAfter (.openChannel isimAid) State.reset).nextId = 258 := by decide
/-- S12: 257 is in use, so after 65535 the id is 258. -/
theorem test_open_s12 : responseOf (.openChannel isimAid)
    (stateAfter (.openChannel isimAid) { onUsim with nextId := 65535 }) = some [0x00, 0x01, 0x02] := by decide
/-- P2 steps 6 and 7: the session goes into the slot that was closed. -/
theorem test_close_p2 : (stateAfter (.openChannel isimAid) (stateAfter (.closeChannel 258) fullState)).sess.slot1 =
    ⟨true, 261, isimAid, .isim⟩ := by decide
/-- S6. -/
theorem test_close_s6 : responseOf (.closeChannel 999) State.reset = some [0x00] := by decide
/-- S5. -/
theorem test_lookup_s5 : responseOf (.lookup 257) onIsim = some ([0x00, 0x07] ++ isimAid ++ [0x02]) := by decide
/-- S11. -/
theorem test_lookup_s11 : responseOf (.lookup 0) State.reset = some [0x04] := by decide

/-! ### The router and file access -/

/-- R11. -/
theorem test_apdu_r11 : responseOf (.apduExec 257 [0x00, 0x88]) onUsim = some [0x00, 0x00, 0x02, 0x67, 0x00] := by
  decide
/-- R12. -/
theorem test_apdu_r12 : responseOf (.apduExec 257 [0x00, 0x88, 0x00, 0x82, 0x11]) onUsim =
    some [0x00, 0x00, 0x02, 0xFF, 0xFF] := by decide
/-- R13. -/
theorem test_authenticate_gsm_r13 : responseOf (.authenticateGsm 257 (0x10 :: List.replicate 15 0)) onUsim =
    some [0x00, 0x00, 0x02, 0x67, 0x00] := by decide
/-- R3. -/
theorem test_authenticate_umts_r3 : responseOf (.authenticateUmts 257 (umtsBody autnSync)) onIsim =
    some [0x00, 0x00, 0x10, 0xDC, 0x0E, 0xBA, 0x85, 0x3F, 0x3C, 0x12, 0x3C, 0xCF, 0x44, 0xE9, 0x35, 0x96, 0xE3, 0x55,
      0xC6] := by decide +kernel
/-- R9. -/
theorem test_authenticate_umts_r9 : responseOf (.authenticateUmts 257 (umtsBody autnOk)) onUsim =
    some [0x00, 0x00, 0x02, 0x98, 0x62] := by decide
/-- F2: the collaborator is not called. -/
theorem test_file_f2 : (stateAfter (.fileAccess 258 [0x42]) onIsim).fsCalls = 0 ∧
    responseOf (.fileAccess 258 [0x42]) onIsim = some [0x04] := by decide

/-! ### The AT host interface -/

/-- The bytes of a test line. -/
def line (t : String) : Bytes := ascii t.toList
/-- The reply lines of a line on port 0. -/
def replies (t : String) (s : State) : Option (List Bytes) := (atLine 0 (line t) s).map Prod.fst

/-- T4. -/
theorem test_at_t4 : replies "AT+CUAD" State.reset =
    some [line "+CUAD: A0000000871002", line "+CUAD: A0000000871004", line "OK"] := by decide +kernel
/-- T14. -/
theorem test_at_t14 : replies "AT+CGLA=00257,0,0088" onIsim = some [line "+CGLA: 4,\"6700\"", line "OK"] := by
  decide +kernel
/-- R303, D23: no white space anywhere, a tab in a file command among it. -/
theorem test_at_tab : replies "AT+CRLA=257,B0\t00" onIsim = some [line "ERROR"] := by decide +kernel
/-- T15. -/
theorem test_at_t15 : replies "AT+CGLA=65536,5,\"0088008011\"" State.reset = some [line "ERROR"] := by decide +kernel

/-! ### The hypotheses of the statements are met

One theorem for each statement of `Obligations.lean` that has hypotheses, named after it: a state and operands that meet
them together, for each clause at the ends of its range. -/

/-- Three sessions open: slot 1 of `fullState` closed. -/
def threeState : State := { fullState with sess := { fullState.sess with slot1 := noSlot } }
/-- Slots 1 to 3 of `fullState` open, and the candidate id in use. -/
def skipState : State := { fullState with sess := { fullState.sess with slot0 := noSlot }, nextId := 258 }
/-- The record of `CFG1` (R381). -/
def cfg1Record : ConfigRecord :=
  ⟨CardConfig.reference.ki.toList, CardConfig.reference.opc.toList, CardConfig.reference.sqn.toList,
    CardConfig.reference.aids, true⟩
/-- A record whose `Ki` is one byte short. -/
def shortRecord : ConfigRecord := { cfg1Record with ki := List.replicate 15 0 }
/-- The record of `CFG1` as text (R381). -/
def cfg1Text : ConfigText :=
  ⟨line "465B5CE8B199B49FAA5F0A2EE238A6BC", line "CD63CB71954A9F4E48A5994E37A02BAF", line "FF9BB4D0B607",
    [(line "A0000000871002", line "USIM"), (line "A0000000871004", line "ISIM")], true⟩

theorem witness_DecodeInvertsEncode :
    (Instr.listAids.wf && (Instr.openChannel (List.replicate 255 0)).wf && (Instr.closeChannel 65535).wf &&
      (Instr.lookup 0).wf && (Instr.apduExec 257 [0x00, 0x88, 0x00, 0x82, 0x11]).wf && (Instr.fileAccess 0 []).wf &&
      (Instr.aesEncrypt [] [0]).wf && (Instr.gsmAuth [0] []).wf && (Instr.umtsAuth [] [] [] [] [0]).wf &&
      (Instr.classify [0] 0xFF).wf && (Instr.authenticateGsm 1 []).wf && (Instr.authenticateUmts 1 [0]).wf) = true := by
  decide +kernel

theorem witness_EveryFrameIsItsCommandsEncoding :
    decode [0x05, 0x01, 0x01, 0x00, 0x05, 0x00, 0x88, 0x00, 0x80, 0x11] = .ok (.authenticateGsm 257 []) := by decide

theorem witness_ReservedOpcodesGetErrFrame : ∀ op ∈ ([0x00, 0x07, 0x0F, 0x14, 0xFF] : Bytes),
    op.toNat = 0x00 ∨ (0x07 ≤ op.toNat ∧ op.toNat ≤ 0x0F) ∨ 0x14 ≤ op.toNat := by decide

theorem witness_MalformedFramesGetErrFrame :
    decode [] = .error .noOpcode ∧ decode [0x0F] = .error .reservedOpcode ∧ decode [0x03, 0x01] = .error .truncated ∧
      decode [0x01, 0x00] = .error .trailingBytes := by decide

theorem witness_StepRunsTheChosenCommand :
    selectPort 0 (pendingOn [0x01] onIsim).ports = some ⟨0, [0x01], 0⟩ ∧ decode [0x01] = .ok .listAids ∧
      ∃ t, exec .listAids (pendingOn [0x01] onIsim) = .next t := ⟨rfl, rfl, _, rfl⟩

theorem witness_IdleMachineWaits : ∀ p ∈ onIsim.ports, p.status = .idle := by decide

theorem witness_PlacedWordRunsNext : decodeTableWord 8 0x03 = some (.closeChannel 0) := by decide

theorem witness_EveryServedCommandIsAnsweredOnce :
    selectPort 0 { onIsim with ports := [⟨.idle, none⟩, ⟨.pending [0x01] 5, none⟩, ⟨.pending [0x07] 5, none⟩] }.ports =
      some ⟨1, [0x01], 5⟩ := by decide

theorem witness_PendingCommandIsEventuallyServed :
    (pendingOn [0x01] onIsim).ports[0]? = some ⟨.pending [0x01] 0, none⟩ ∧
      (0 + 1 - (pendingOn [0x01] onIsim).served) + (pendingOn [0x01] onIsim).ports.length ≤
        [HostEvent.serve, .submit 1 [0x07], .serve, .serve].countP (fun e => e == .serve) := by decide

theorem witness_SubmissionNeedsAnIdlePort :
    onIsim.ports[1]? = some ⟨.idle, none⟩ ∧ (∀ old, (pendingOn [0x01] onIsim).ports[0]? ≠ some ⟨.idle, old⟩) ∧
      (∀ old, onIsim.ports[2]? ≠ some ⟨.idle, old⟩) := by
  refine ⟨rfl, ?_, ?_⟩ <;> intro old <;> simp [pendingOn, onIsim, withSlot, State.reset, State.fresh, Config.nPorts]

theorem witness_onIsim_inv : onIsim.Inv := by
  have used : onIsim.sess.inUse = [257] := rfl
  have opened : onIsim.sess.openSlots = [isimSlot] := rfl
  refine ⟨by decide, by decide, ?_, ?_, by decide +kernel, rfl⟩
  · intro id h
    rw [used, List.mem_singleton] at h
    subst h
    decide +kernel
  · intro k h
    rw [opened, List.mem_singleton] at h
    subst h
    exact ⟨⟨isimAid, .isim⟩, by decide, rfl, rfl⟩

/-- A pending command is no part of the invariants. -/
theorem witness_inv (f : Bytes) : (pendingOn f onIsim).Inv :=
  ⟨witness_onIsim_inv.1, witness_onIsim_inv.2, witness_onIsim_inv.3, witness_onIsim_inv.4, witness_onIsim_inv.5,
    witness_onIsim_inv.6⟩

theorem witness_EveryStepKeepsTheInvariants :
    (pendingOn [0x02, 0x01, 0xA0] onIsim).Inv ∧ ∃ t, step (pendingOn [0x02, 0x01, 0xA0] onIsim) = .next t :=
  ⟨witness_inv _, _, rfl⟩

theorem witness_ResetAndSubmissionKeepTheInvariants :
    (boot 1 0 cfg1Record).isSome = true ∧ (State.resetWith cfg1Record onIsim).isSome = true ∧
      (pendingOn [0x01] onIsim).Inv ∧ (State.submit 1 [0x01] (pendingOn [0x01] onIsim)).isSome = true :=
  ⟨by decide, by decide, witness_inv _, rfl⟩

theorem witness_OnlyOpenAndCloseWriteState :
    (∃ t, exec (.openChannel isimAid) State.reset = .next t) ∧ (∃ t, exec (.closeChannel 257) onIsim = .next t) ∧
      ∃ t, exec .listAids onIsim = .next t ∧ (∀ aid, Instr.listAids ≠ .openChannel aid) ∧
        (∀ id, Instr.listAids ≠ .closeChannel id) ∧ ∀ id cmd, Instr.listAids ≠ .fileAccess id cmd :=
  ⟨⟨_, rfl⟩, ⟨_, rfl⟩, _, rfl, nofun, nofun, nofun⟩

theorem witness_ErrorsArePrecise :
    runFrame [0x04, 0x03, 0xE7] onIsim = .next (onIsim.raise .notFound) ∧
      (onIsim.raise .notFound).out = some [0x04] := ⟨rfl, rfl⟩

theorem witness_WorkIsClearedAndNeverRead : runFrame [0x0F] onIsim = .next (onIsim.raise .frame) := rfl

theorem witness_KeysReachOnlyApduResponses :
    usesKeys .listAids = false ∧
      sameButKeys onIsim { onIsim with cfg := { onIsim.cfg with ki := rand1, sqn := Vector.replicate 6 0 } } ∧
      ∃ t t', exec .listAids onIsim = .next t ∧
        exec .listAids { onIsim with cfg := { onIsim.cfg with ki := rand1, sqn := Vector.replicate 6 0 } } = .next t' :=
  ⟨rfl, rfl, _, _, rfl, rfl⟩

theorem witness_SlotIndexIsNotObservable :
    onIsim.sess.inUse.Nodup ∧ ({ SessionTable.empty with slot3 := isimSlot }).openSlots.Perm onIsim.sess.openSlots ∧
      ∃ t t', exec (.lookup 257) onIsim = .next t ∧
        exec (.lookup 257) { onIsim with sess := { SessionTable.empty with slot3 := isimSlot } } = .next t' :=
  ⟨by decide, by decide, _, _, rfl, rfl⟩

theorem witness_OpenChannelResult :
    fullState.sess.openCount = 4 ∧ threeState.sess.openCount = 3 ∧ (∀ e ∈ threeState.cfg.aids, e.aid ≠ []) ∧
      validAids threeState.cfg.aids = true ∧ ⟨isimAid, .isim⟩ ∈ threeState.cfg.aids := by decide

theorem witness_NewSessionTakesTheLowestFreeSlot :
    SessionTable.empty.slots[0]? = some noSlot ∧ threeState.sess.slots[1]? = some noSlot ∧ noSlot.valid = false ∧
      ∀ m used, m < 1 → threeState.sess.slots[m]? = some used → used.valid = true := by
  refine ⟨rfl, rfl, rfl, ?_⟩
  intro m used hm h
  obtain rfl : m = 0 := by omega
  cases h
  rfl

/-- The candidate is free at once, and after the most that can be skipped. -/
theorem witness_IdGivenOutIsTheFirstFree :
    threeState.sess.openCount < 4 ∧ threeState.candidateId = 261 ∧ skipState.sess.openCount < 4 ∧
      skipState.candidateId = succId (succId (succId 258)) ∧ (65534 : U16).toNat < 65535 := by decide

theorem witness_CloseChannelResult :
    999 ∉ fullState.sess.inUse ∧ fullState.sess.inUse.Nodup ∧
      fullState.sess.slots[3]? = some ⟨true, 260, isimAid, .isim⟩ := by decide

theorem witness_ClosedSessionIsGone : fullState.sess.inUse.Nodup ∧ 260 ∈ fullState.sess.inUse := by decide

theorem witness_LookupResult :
    0 ∉ onIsim.sess.inUse ∧ onIsim.sess.inUse.Nodup ∧ isimSlot ∈ onIsim.sess.openSlots ∧ isimSlot.id = 257 := by decide

theorem witness_OpenedSessionIsFoundByItsId :
    responseOf (.openChannel isimAid) threeState = some (0x00 :: u16Bytes 261) := by decide

theorem witness_FifthOpenFailsUntilAClose :
    State.reset.sess.openSlots = [] ∧
      (∀ a ∈ [usimAid, isimAid, usimAid, isimAid, usimAid], (State.reset.cfg.findAid a).isSome = true) ∧
      257 ∈ (stateAfter (.openChannel isimAid) (stateAfter (.openChannel usimAid) (stateAfter (.openChannel isimAid)
        (stateAfter (.openChannel usimAid) State.reset)))).sess.inUse := by decide

theorem witness_AesEncryptResult :
    (List.replicate 15 (0 : Byte)).length ≠ 16 ∧ (List.replicate 17 (0 : Byte)).length ≠ 16 ∧
      (noCipher onIsim).cfg.cipherAvailable = false ∧ onIsim.cfg.cipherAvailable = true := by decide

theorem witness_KeyExpansionRecurrence :
    ([4 - 4, 4 - 1, 43 - 4, 43 - 1].all fun i => (keyExpansion rand1)[i]?.isSome) = true := by decide +kernel

theorem witness_SboxIsAffineOfInverse : (0x01 : Byte) ≠ 0 := by decide

theorem witness_EncryptionIsInjective : aes rand1 autnOk = aes rand1 autnOk := rfl

theorem witness_GsmAuthResult :
    (List.replicate 0 (0 : Byte)).length ≠ 16 ∧ (List.replicate 17 (0 : Byte)).length ≠ 16 := by decide

theorem witness_CompressionEndsBelowSixteen : (List.replicate 32 255).length = 32 := by decide

theorem witness_UmtsAuthResult :
    (List.replicate 5 (0 : Byte)).length ≠ 6 ∧ (List.replicate 17 (0 : Byte)).length ≠ 16 ∧
      (noCipher onIsim).cfg.cipherAvailable = false ∧ onIsim.cfg.cipherAvailable = true := by decide

/-- M2 (the SQN field) and M3 (the MAC field). -/
theorem witness_CorruptedChallengeOutcome :
    (slice autnSync.toList 0 6 : B 6) ≠ bxor CardConfig.reference.sqn
        (tsF5 CardConfig.reference.ki CardConfig.reference.opc rand1) ∧
      (slice autnBadMac.toList 0 6 : B 6) = bxor CardConfig.reference.sqn
        (tsF5 CardConfig.reference.ki CardConfig.reference.opc rand1) ∧
      (slice autnBadMac.toList 8 8 : B 8) ≠ tsF1 CardConfig.reference.ki CardConfig.reference.opc rand1
        CardConfig.reference.sqn (slice autnBadMac.toList 6 2) := by decide +kernel

theorem witness_ClassifierAppliesItsRulesInOrder :
    ((0xFF : Byte) ≠ 0x00) ∧ ((0x89 : Byte) ≠ 0x88) ∧ ((0x01 : Byte) ≠ 0x00) ∧ ((0x10 : Byte) ≠ 0x11) ∧
      ((0x23 : Byte) ≠ 0x22) ∧ ((0x7F : Byte) ≠ 0x80) ∧ ((0x82 : Byte) ≠ 0x81) := by decide

theorem witness_ClassifyResult :
    ([0x00, 0x88, 0x00, 0x80] : Bytes).length ≠ 5 ∧ (0x03 : Byte).toNat > 0x02 ∧ (0xFF : Byte).toNat > 0x02 := by decide

theorem witness_ApduExecResult :
    258 ∉ onUsim.sess.inUse ∧ 257 ∈ onUsim.sess.inUse ∧ ([0x00, 0x88, 0x00, 0x80] : Bytes).length < 5 ∧
      onUsim.sess.inUse.Nodup ∧ usimSlot ∈ onUsim.sess.openSlots ∧ usimSlot.id = 257 ∧
      classifyFn 0x00 0x88 0x00 0x81 0x22 usimSlot.type = .statusError .applicationError := by decide

theorem witness_AuthenticateGsmResult :
    onUsim.sess.inUse.Nodup ∧ usimSlot ∈ onUsim.sess.openSlots ∧ usimSlot.id = 257 ∧ usimSlot.type ≠ .other ∧
      ([] : Bytes).length ≤ 1 ∧ ([0x00] : Bytes).length ≤ 1 := by decide

theorem witness_AuthenticateUmtsResult :
    onIsim.sess.inUse.Nodup ∧ isimSlot ∈ onIsim.sess.openSlots ∧ isimSlot.id = 257 ∧ isimSlot.type = .isim ∧
      ([] : Bytes).length ≤ 1 ∧ ([0x00] : Bytes).length ≤ 1 := by decide

/-- Bodies one byte too short, one too long, and of the right length with a wrong length byte. -/
theorem witness_WrongBodiesGetWrongLength :
    onIsim.sess.inUse.Nodup ∧ isimSlot ∈ onIsim.sess.openSlots ∧ isimSlot.id = 257 ∧ isimSlot.type = .isim ∧
      (List.replicate 16 (0x10 : Byte)).length ≠ 17 ∧ (List.replicate 19 (0x10 : Byte)).length ≠ 18 ∧
      (List.replicate 17 (0x11 : Byte)).getD 0 0 ≠ 0x10 ∧ (List.replicate 33 (0x10 : Byte)).length ≠ 34 ∧
      (List.replicate 36 (0x10 : Byte)).length ≠ 35 ∧ (0x10 :: List.replicate 33 (0x0F : Byte)).getD 17 0 ≠ 0x10 := by
  decide

theorem witness_FileAccessResult : 258 ∉ onIsim.sess.inUse ∧ 257 ∈ onIsim.sess.inUse := by decide

theorem witness_FirstResetLoadsTheRecord : cfg1Record.valid = true := by decide

theorem witness_ResetIsPartialAndIdempotent :
    shortRecord.valid = false ∧ (pendingOn [0x01] onIsim).allIdle = false ∧ cfg1Record.valid = true ∧
      onIsim.allIdle = true ∧ (onIsim.resetWith cfg1Record).isSome = true := by decide

theorem witness_TextRecordHasExactWidths : cfg1Text.parse = some cfg1Record ∧ cfg1Record.valid = true := by
  decide +kernel

theorem witness_HexTextRoundTrip : unhex (line "a0fF") = some [0xA0, 0xFF] := by decide +kernel

theorem witness_InstancesShareNothing : (1 : Nat) ≠ 0 := by decide

theorem witness_CapabilityQueryHasNoEffect : (line "=257,x").head? = some eqSign := by decide +kernel

/-- One line of each keyword. -/
theorem witness_AdapterIssuesOnlyGoodFrames :
    atParse (line "AT+CUAD") = .issue .cuad .listAids ∧ atParse (line "AT+CCHO=\"A0\"") = .issue .ccho (.openChannel [0xA0]) ∧
      atParse (line "AT+CCHC=65535") = .issue .cchc (.closeChannel 65535) ∧
      atParse (line "AT+CGLA=00257,0,0088") = .issue .cgla (.apduExec 257 [0x00, 0x88]) ∧
      atParse (line "AT+CRLA=257,B0,1") = .issue .crla (.fileAccess 257 (line "B0,1")) := by decide +kernel

theorem witness_ErrorRepliesLeaveTheStateUnchanged :
    onIsim.allIdle = true ∧ onIsim.work = .cleared ∧ atLine 0 (line "AT+CCHO") onIsim = some ([errorLine], onIsim) := by
  decide +kernel

theorem witness_CglaReplyRendersTheCardResponse :
    onIsim.allIdle = true ∧ 1 < onIsim.ports.length ∧
      atParse (line "AT+CGLA=257,0,0088") = .issue .cgla (.apduExec 257 [0x00, 0x88]) ∧
      responseOf (.apduExec 257 [0x00, 0x88]) onIsim = some (0x00 :: lv2 [0x67, 0x00]) := by decide +kernel

theorem witness_ShiftRowsAndMixColumnsByTheirFormulas : (0 : Nat) < 4 ∧ (3 : Nat) < 4 := by decide

theorem witness_PublishedKcEndsInTenZeroBits : (0 : Nat) < 4 ∧ (3 : Nat) < 4 := by decide

theorem witness_PlaceIsRotation : (0 : Nat) < 16 ∧ (15 : Nat) < 16 := by decide

/-- An instance with a single port, never reset and then reset. -/
theorem witness_FirstResetStartsAnInstance :
    (⟨1, 7, none⟩ : Instance).state = none ∧ cfg1Record.valid = true ∧ 0 < (⟨1, 7, none⟩ : Instance).nPorts ∧
      shortRecord.valid = false := by decide

end Sys2Proof.Tests
end

section
/-! SUPPORT. What loading a configuration record, a reset and an event do, said once (`70_reset_and_hazards.md`). -/

namespace Sys2Proof.Machine

/-! ### The configuration record and the two resets -/

/-- R381: a valid record is loaded field by field. -/
theorem ConfigRecord.load_of_valid {r : ConfigRecord} (h : r.valid = true) :
    r.load = some ⟨fixed 16 r.ki, fixed 16 r.opc, fixed 6 r.sqn, r.aids, r.cipherAvailable⟩ := if_pos h

/-- R382: an invalid record is never loaded. -/
theorem ConfigRecord.load_of_invalid {r : ConfigRecord} (h : r.valid = false) : r.load = none := by
  simp [ConfigRecord.load, h]

/-- A fresh state has the number of ports asked for (R8). -/
@[simp] theorem State.fresh_ports_length (cfg : CardConfig) (n stream : Nat) :
    (State.fresh cfg n stream).ports.length = n := List.length_replicate

/-- A first reset over a loaded configuration gives the fresh state (R39, R380). -/
theorem boot_of_load {n stream : Nat} {r : ConfigRecord} {cfg : CardConfig} (hn : 0 < n) (h : r.load = some cfg) :
    boot n stream r = some (State.fresh cfg n stream) := by
  simp [boot, hn, h]

/-- R382: a first reset with an invalid record creates no state. -/
theorem boot_of_invalid (n stream : Nat) {r : ConfigRecord} (h : r.valid = false) : boot n stream r = none := by
  simp [boot, ConfigRecord.load_of_invalid h]

/-- R382: a reset of a running instance with an invalid record is refused. -/
theorem State.resetWith_of_invalid (s : State) {r : ConfigRecord} (h : r.valid = false) : s.resetWith r = none := by
  simp [State.resetWith, ConfigRecord.load_of_invalid h]

/-- A refused reset leaves a running instance's state (R382). -/
theorem State.after_reset_of_invalid (s : State) {r : ConfigRecord} (h : r.valid = false) :
    s.after (.reset r) = s := by
  simp [State.after, State.resetWith_of_invalid s h]

/-! ### An instance before and after its first reset -/

/-- A running instance takes an event as its state does. -/
theorem Instance.after_of_running {c : Instance} {s : State} (h : c.state = some s) (e : HostEvent) :
    c.after e = { c with state := some (s.after e) } := by
  simp [Instance.after, h]

/-- R385: an instance never reset stops (log entry 13). -/
theorem Instance.step_of_neverReset {c : Instance} (h : c.state = none) : c.step = .fault .neverReset := by
  simp [Instance.step, h]

/-- R385: a submission does not start an instance. -/
theorem Instance.after_submit_of_neverReset {c : Instance} (h : c.state = none) (p : Nat) (frame : Bytes) :
    c.after (.submit p frame) = c := by
  simp [Instance.after, h]

/-- R385: an arbiter step does not start an instance. -/
theorem Instance.after_serve_of_neverReset {c : Instance} (h : c.state = none) : c.after .serve = c := by
  simp [Instance.after, h]

/-- A reset of an instance never reset is a first reset with the instance's own ports and stream (R8, R385). -/
theorem Instance.after_reset_of_neverReset {c : Instance} (h : c.state = none) (r : ConfigRecord) :
    c.after (.reset r) = { c with state := boot c.nPorts c.stream r } := by
  simp [Instance.after, h]

/-- R382: a reset with an invalid record changes no instance, running or not. -/
theorem Instance.after_reset_of_invalid (c : Instance) {r : ConfigRecord} (hr : r.valid = false) :
    c.after (.reset r) = c := by
  cases hc : c.state with
  | none => rw [Instance.after_reset_of_neverReset hc, boot_of_invalid _ _ hr, ← hc]
  | some s => rw [Instance.after_of_running hc, State.after_reset_of_invalid s hr, ← hc]

/-- Settles O60: before the first reset only a reset does anything; an invalid record is refused at either kind of
reset; a valid one is loaded into the fresh state with the instance's own ports. -/
theorem firstResetStartsAnInstance : Obligations.FirstResetStartsAnInstance := by
  intro c r p frame
  refine ⟨fun hc => ?neverReset, Instance.after_reset_of_invalid c, fun hc hr hn => ?started⟩
  case neverReset =>
    exact ⟨Instance.step_of_neverReset hc, Instance.after_submit_of_neverReset hc p frame,
      Instance.after_serve_of_neverReset hc⟩
  case started =>
    have booted := boot_of_load (stream := c.stream) hn (ConfigRecord.load_of_valid hr)
    exact ⟨_, by rw [Instance.after_reset_of_neverReset hc, booted], booted, State.fresh_ports_length _ _ _⟩

end Sys2Proof.Machine
end

section
/-! SUPPORT. The state invariants: they hold after either kind of reset, and a submission and every step keep them
(R26, R31, R32, R35). -/

namespace Sys2Proof.Machine

/-! ### The id allocator -/

theorem SessionTable.length_inUse (t : SessionTable) : t.inUse.length = t.openCount := List.length_map _

/-- R272: the successor of an id, as a number. -/
theorem toNat_succId (v : U16) : (succId v).toNat = if v.toNat = 65535 then 257 else v.toNat + 1 := by
  by_cases hv : v = Config.sessionIdMax
  · subst hv
    rfl
  · have hne : v.toNat ≠ 65535 := fun h => hv (BitVec.eq_of_toNat_eq h)
    have hlt := v.isLt
    rw [succId, if_neg hv, if_neg hne, BitVec.toNat_add]
    exact Nat.mod_eq_of_lt (by simp; omega)

/-- The first four candidates are different ids: the cycle of `succ` is longer than the session table (R272). -/
theorem candidates_nodup (v : U16) : ((List.range 4).map fun m => succId^[m] v).Nodup := by
  have hlt := v.isLt
  show [v, succId v, succId (succId v), succId (succId (succId v))].Nodup
  simp only [List.nodup_cons, List.nodup_nil, List.mem_cons, List.not_mem_nil, or_false, not_false_eq_true, and_true,
    ← BitVec.toNat_inj, toNat_succId]
  split_ifs <;> omega

/-- R272: where fewer than four ids are in use, the allocator gives out one that is not. -/
theorem allocId_notMem (used : List U16) (v : U16) (room : used.length < 4) :
    allocId used Config.maxLogicalChannels v ∉ used := by
  obtain ⟨n, hn, halloc, hskipped, hstop⟩ := allocId_cases used Config.maxLogicalChannels v
  rw [halloc]
  apply hstop
  by_contra hall
  have hsub : ((List.range 4).map fun m => succId^[m] v) ⊆ used := by
    intro id hid
    obtain ⟨m, hm, rfl⟩ := List.mem_map.mp hid
    exact hskipped m (Nat.lt_of_lt_of_le (List.mem_range.mp hm) (Nat.not_lt.mp hall))
  have hle := ((candidates_nodup v).subperm hsub).length_le
  simp at hle
  omega

/-- R272: the id of a new session is not in use. -/
theorem State.candidateId_notMem_inUse {s : State} (room : s.sess.openCount < 4) : s.candidateId ∉ s.sess.inUse :=
  allocId_notMem _ _ (by rwa [SessionTable.length_inUse])

/-! ### The invariants and the operations of a step -/

theorem idInRange_iff {id : U16} : idInRange id = true ↔ Config.sessionIdBase ≤ id := decide_eq_true_iff

/-- R272: the id of a new session is in range where `NEXT_ID` is. -/
theorem State.Inv.candidateId_ge {s : State} (h : s.Inv) : Config.sessionIdBase ≤ s.candidateId :=
  allocId_ge _ _ _ (idInRange_iff.mp h.nextIdInRange)

/-- The end of a command keeps the invariants. -/
theorem State.Inv.finish {s : State} (h : s.Inv) (r : Response) : (s.finish r).Inv :=
  { h with workCleared := rfl }

/-- A call of the collaborator keeps the invariants. -/
theorem State.Inv.countFileCall {s : State} (h : s.Inv) : s.countFileCall.Inv := { h with }

/-- The delivery of a response keeps the invariants. -/
theorem State.Inv.deliver {s : State} (h : s.Inv) (p : Nat) : (s.deliver p).Inv := { h with }

/-- R270, R272: opening a session of a registry entry keeps the invariants, where a slot is free. -/
theorem State.Inv.openSession {s : State} (h : s.Inv) {e : AidEntry} (room : s.sess.openCount < 4)
    (known : e ∈ s.cfg.aids) : (s.openSession e).Inv := by
  have slots := openSlots_put s.sess ⟨true, s.candidateId, e.aid, e.type⟩ rfl room
  have ids : (s.openSession e).sess.inUse.Perm (s.candidateId :: s.sess.inUse) := slots.map _
  exact {
    registryValid := h.registryValid
    idsDistinct := ids.nodup_iff.mpr
      (List.nodup_cons.mpr ⟨State.candidateId_notMem_inUse room, h.idsDistinct⟩)
    idsInRange := fun id hid => by
      obtain rfl | hold := List.mem_cons.mp (ids.mem_iff.mp hid)
      · exact idInRange_iff.mpr h.candidateId_ge
      · exact h.idsInRange id hold
    registered := fun k hk => by
      obtain rfl | hold := List.mem_cons.mp (slots.mem_iff.mp hk)
      · exact ⟨e, known, rfl, rfl⟩
      · exact h.registered k hold
    nextIdInRange := idInRange_iff.mpr (succId_ge _ h.candidateId_ge)
    workCleared := h.workCleared }

/-- R274: closing a session keeps the invariants. -/
theorem State.Inv.closeSession {s : State} (h : s.Inv) (id : U16) : (s.closeSession id).Inv := by
  have slots : (s.closeSession id).sess.openSlots.Sublist s.sess.openSlots := by
    rw [State.closeSession_sess, openSlots_close _ _ h.idsDistinct]
    exact List.filter_sublist
  have ids : (s.closeSession id).sess.inUse.Sublist s.sess.inUse := slots.map _
  exact { h with
    idsDistinct := h.idsDistinct.sublist ids
    idsInRange := fun id hid => h.idsInRange id (ids.subset hid)
    registered := fun k hk => h.registered k (slots.subset hk) }

/-- Every command keeps the invariants. -/
theorem State.Inv.effect {i : Instr} {s t : State} (h : s.Inv) (he : Effect i s t) : t.Inv := by
  cases he with
  | response r => exact h.finish r
  | opened aid e hi room known => exact (h.openSession room (mem_of_findAid known).1).finish _
  | closed id hi => exact (h.closeSession id).finish _
  | called id cmd hi found => exact h.countFileCall.finish _

/-- What an arbiter step can do: wait, or deliver what a frame left (R290, R374). -/
theorem step_cases {s t : State} (h : step s = .next t) :
    (selectPort 0 s.ports = none ∧ t = s) ∨
      ∃ c u, selectPort 0 s.ports = some c ∧ runFrame c.frame s = .next u ∧ t = u.deliver c.port := by
  unfold step serve at h
  cases hc : selectPort 0 s.ports with
  | none => exact .inl ⟨rfl, by simpa [hc] using h.symm⟩
  | some c =>
    obtain ⟨u, hu, -⟩ := runFrame_next c.frame s
    exact .inr ⟨c, u, rfl, hu, by simpa [hc, hu, deliverOutcome] using h.symm⟩

/-- What a frame can do: one of the effects of its command, or the response `ERR_FRAME` (R91). -/
theorem runFrame_cases {frame : Bytes} {s t : State} (h : runFrame frame s = .next t) :
    (∃ i, decode frame = .ok i ∧ Effect i s t) ∨ t = s.raise .frame := by
  obtain ⟨u, hu, heffect⟩ := runFrame_next frame s
  cases hu.symm.trans h
  exact heffect

/-- Every frame keeps the invariants, well formed or not. -/
theorem State.Inv.runFrame {frame : Bytes} {s t : State} (h : s.Inv) (hrun : runFrame frame s = .next t) : t.Inv := by
  obtain ⟨i, -, he⟩ | rfl := runFrame_cases hrun
  · exact h.effect he
  · exact h.finish _

/-- Settles O13: a step waits, or delivers what one command left, and each of the four effects of a command keeps the
invariants; a new id is fresh because at most three are in use. -/
theorem everyStepKeepsTheInvariants : Obligations.EveryStepKeepsTheInvariants := by
  intro s t h hstep
  obtain ⟨-, rfl⟩ | ⟨c, u, -, hrun, rfl⟩ := step_cases hstep
  · exact h
  · exact (h.runFrame hrun).deliver _

/-! ### Resets and submissions -/

/-- R381: the conditions on a record. -/
theorem ConfigRecord.valid_iff {c : ConfigRecord} :
    c.valid = true ↔ c.ki.length = 16 ∧ c.opc.length = 16 ∧ c.sqn.length = 6 ∧ validAids c.aids = true := by
  simp [ConfigRecord.valid, and_assoc]

/-- R381, R382: a record that is loaded has a valid registry, and it is the one in the configuration. -/
theorem ConfigRecord.validAids_of_load {c : ConfigRecord} {cfg : CardConfig} (h : c.load = some cfg) :
    validAids cfg.aids = true := by
  cases hv : c.valid with
  | false => simp [ConfigRecord.load_of_invalid hv] at h
  | true =>
    obtain rfl := Option.some.inj ((ConfigRecord.load_of_valid hv).symm.trans h)
    obtain ⟨-, -, -, haids⟩ := ConfigRecord.valid_iff.mp hv
    exact haids

/-- A first reset that is accepted gives the fresh state of the loaded configuration (R380). -/
theorem fresh_of_boot {n stream : Nat} {c : ConfigRecord} {s : State} (h : boot n stream c = some s) :
    ∃ cfg, c.load = some cfg ∧ s = State.fresh cfg n stream := by
  unfold boot at h
  split at h
  · obtain ⟨cfg, hload, hs⟩ := Option.map_eq_some_iff.mp h
    exact ⟨cfg, hload, hs.symm⟩
  · cases h

/-- R39: a state with no session, `NEXT_ID` at its base and `WORK` empty has the invariants, where the registry is
valid. -/
theorem State.Inv.of_noSession {s : State} (haids : validAids s.cfg.aids = true) (hsess : s.sess = .empty)
    (hnext : s.nextId = Config.sessionIdBase) (hwork : s.work = .cleared) : s.Inv where
  registryValid := haids
  idsDistinct := by simp [hsess]
  idsInRange := by simp [hsess]
  registered := by simp [hsess]
  nextIdInRange := idInRange_iff.mpr (by rw [hnext]; exact BitVec.le_refl _)
  workCleared := hwork

/-- A fresh state over a valid registry has the invariants. -/
theorem State.Inv.fresh {cfg : CardConfig} (h : validAids cfg.aids = true) (n stream : Nat) :
    (State.fresh cfg n stream).Inv := .of_noSession h rfl rfl rfl

/-- A later reset that is accepted gives a state with the invariants, from any state (R380). -/
theorem State.Inv.resetWith {c : ConfigRecord} {s t : State} (h : s.resetWith c = some t) : t.Inv := by
  unfold State.resetWith at h
  split at h
  · obtain ⟨cfg, hload, rfl⟩ := Option.map_eq_some_iff.mp h
    exact .of_noSession (ConfigRecord.validAids_of_load hload) rfl rfl rfl
  · cases h

/-- An accepted submission keeps the invariants: it writes the ports and the submission count only (R290). -/
theorem State.Inv.submit {p : Nat} {frame : Bytes} {s t : State} (h : s.Inv) (hsub : s.submit p frame = some t) :
    t.Inv := by
  unfold State.submit at hsub
  split at hsub
  · obtain rfl := Option.some.inj hsub
    exact { h with }
  · cases hsub

/-- Settles O14: either reset loads a valid registry and opens no session; a submission touches no invariant. -/
theorem resetAndSubmissionKeepTheInvariants : Obligations.ResetAndSubmissionKeepTheInvariants := by
  refine ⟨fun n stream c s hboot => ?_, fun c s t hreset => .resetWith hreset, fun p frame s t h hsub => h.submit hsub⟩
  obtain ⟨cfg, hload, rfl⟩ := fresh_of_boot hboot
  exact .fresh (ConfigRecord.validAids_of_load hload) n stream

/-- Settles O12: the reset state is a fresh state, and the registry of `CFG1` is valid. -/
theorem resetStateIsInvariant : Obligations.ResetStateIsInvariant := .fresh (by decide) _ _

/-- An operand of the right length is held byte for byte (R9). -/
theorem toList_fixed {n : Nat} {x : Bytes} (h : x.length = n) : (fixed n x).toList = x :=
  congrArg Vector.toList (fixed_toList (ofList x h))

/-- Settles O51: the first reset gives the fresh state, whose configuration holds the record's bytes because their
lengths are exact. -/
theorem firstResetLoadsTheRecord : Obligations.FirstResetLoadsTheRecord := by
  intro n stream c hn hvalid
  obtain ⟨hki, hopc, hsqn, -⟩ := ConfigRecord.valid_iff.mp hvalid
  have idle : ∀ p ∈ List.replicate n Port.fresh, p.status = .idle := fun p hp => by
    rw [List.eq_of_mem_replicate hp, Port.fresh]
  exact ⟨_, boot_of_load hn (ConfigRecord.load_of_valid hvalid), toList_fixed hki, toList_fixed hopc,
    toList_fixed hsqn, rfl, rfl, slots_empty, rfl, rfl, State.fresh_ports_length _ _ _, idle⟩

end Sys2Proof.Machine
end

section
/-! SUPPORT. What a command can see of the state, and the statements that compare two runs of one command: over `WORK`
(R37), over the key material (R360) and over the places of the sessions (R38). -/

namespace Sys2Proof.Machine

/-! ### Two runs of one command -/

/-- The two states show a command the same registry, cipher condition, sessions by id, and number of sessions. -/
structure SameView (s s' : State) : Prop where
  aids : s'.cfg.aids = s.cfg.aids
  cipher : s'.cfg.cipherAvailable = s.cfg.cipherAvailable
  find : ∀ id, s'.sess.find id = s.sess.find id
  openCount : s'.sess.openCount = s.sess.openCount

/-- One effect (`Effect`) on two states at once: the four shapes of what a command does (R70). -/
inductive SameEffect (s s' : State) : State → State → Prop where
  | response (r : Response) : SameEffect s s' (s.finish r) (s'.finish r)
  | opened (e : AidEntry) (room : s.sess.openCount < 4) :
      SameEffect s s' ((s.openSession e).finish (.done (u16Bytes s.candidateId)))
        ((s'.openSession e).finish (.done (u16Bytes s'.candidateId)))
  | closed (id : U16) :
      SameEffect s s' ((s.closeSession id).finish (.done [])) ((s'.closeSession id).finish (.done []))
  | called (cmd : Bytes) :
      SameEffect s s' (s.countFileCall.finish (.done (filePayload (fileAnswer s.stream s.fsCalls cmd))))
        (s'.countFileCall.finish (.done (filePayload (fileAnswer s'.stream s'.fsCalls cmd))))

/-- Of the state the GSM path reads the configuration only (R243). -/
theorem gsmPath_sameEffect (body : Bytes) {s s' : State} (h : s'.cfg = s.cfg) :
    SameEffect s s' (s.gsmPath body) (s'.gsmPath body) := by
  unfold State.gsmPath
  rw [h]
  cases apduData 0x11 body with
  | none => exact .response _
  | some data => dsimp only; split <;> exact .response _

/-- Of the state the UMTS path reads the configuration only (R244). -/
theorem umtsPath_sameEffect (body : Bytes) {s s' : State} (h : s'.cfg = s.cfg) :
    SameEffect s s' (s.umtsPath body) (s'.umtsPath body) := by
  unfold State.umtsPath
  rw [h]
  cases apduData 0x22 body with
  | none => exact .response _
  | some data =>
    dsimp only
    split
    · exact .response _
    · cases milenage s.cfg.cipherAvailable s.cfg.ki s.cfg.opc s.cfg.sqn (slice data 1 16) (slice data 18 16) <;>
        exact .response _

/-- Of the state the router reads the configuration only (R242). -/
theorem routeApdu_sameEffect (t : AppType) (apdu : Bytes) {s s' : State} (h : s'.cfg = s.cfg) :
    SameEffect s s' (s.routeApdu t apdu) (s'.routeApdu t apdu) := by
  unfold State.routeApdu
  split
  · split
    · exact .response _
    · exact gsmPath_sameEffect _ h
    · exact umtsPath_sameEffect _ h
  · exact .response _

/-- A command has the same effect on two states that show it the same; an APDU command reads the key material too. -/
theorem exec_sameEffect (i : Instr) {s s' : State} (view : SameView s s')
    (keys : usesKeys i = true → s'.cfg = s.cfg) :
    ∃ t t', exec i s = .next t ∧ exec i s' = .next t' ∧ SameEffect s s' t t' := by
  have runs : ∀ t t', exec i s = .next t → exec i s' = .next t' → SameEffect s s' t t' →
      ∃ t t', exec i s = .next t ∧ exec i s' = .next t' ∧ SameEffect s s' t t' :=
    fun t t' h h' e => ⟨t, t', h, h', e⟩
  cases i <;> refine runs _ _ rfl rfl ?_
  case listAids =>
    have listing : s'.cfg.listing = s.cfg.listing := by simp only [CardConfig.listing, view.aids]
    rw [listing]
    exact .response _
  case openChannel aid =>
    have known : s'.cfg.findAid aid = s.cfg.findAid aid := by simp only [CardConfig.findAid, view.aids]
    rw [view.openCount, known]
    split
    · exact .response _
    · rename_i room
      cases s.cfg.findAid aid with
      | none => exact .response _
      | some e => exact .opened e (Nat.lt_of_not_le room)
  case closeChannel id => exact .closed id
  case lookup id =>
    rw [view.find]
    cases s.sess.find id <;> exact .response _
  case apduExec id apdu =>
    rw [view.find]
    cases s.sess.find id with
    | none => exact .response _
    | some k => exact routeApdu_sameEffect _ _ (keys rfl)
  case fileAccess id cmd =>
    rw [view.find]
    cases s.sess.find id with
    | none => exact .response _
    | some k => exact .called cmd
  case aesEncrypt key pt =>
    rw [view.cipher]
    split
    · exact .response _
    · cases aesCall s.cfg.cipherAvailable (fixed 16 key) (fixed 16 pt) <;> exact .response _
  case gsmAuth ki rand => split <;> exact .response _
  case umtsAuth ki opc sqn rand autn =>
    rw [view.cipher]
    split
    · exact .response _
    · cases milenage s.cfg.cipherAvailable (fixed 16 ki) (fixed 16 opc) (fixed 6 sqn) (fixed 16 rand)
        (fixed 16 autn) <;> exact .response _
  case classify hdr apptype =>
    split
    · split <;> exact .response _
    · exact .response _
  case authenticateGsm id body =>
    rw [view.find]
    cases s.sess.find id with
    | none => exact .response _
    | some k =>
      dsimp only
      split
      · exact gsmPath_sameEffect _ (keys rfl)
      · exact .response _
  case authenticateUmts id body =>
    rw [view.find]
    cases s.sess.find id with
    | none => exact .response _
    | some k =>
      dsimp only
      split
      · exact umtsPath_sameEffect _ (keys rfl)
      · exact .response _

/-- Two given runs of one command, from states that show it the same. -/
theorem sameEffect_of_exec {i : Instr} {s s' t t' : State} (view : SameView s s')
    (keys : usesKeys i = true → s'.cfg = s.cfg) (h : exec i s = .next t) (h' : exec i s' = .next t') :
    SameEffect s s' t t' := by
  obtain ⟨u, u', hu, hu', same⟩ := exec_sameEffect i view keys
  cases hu.symm.trans h
  cases hu'.symm.trans h'
  exact same

/-! ### The key material -/

/-- The state with other key material `Ki`, `OPc` and `SQN` (R23, R24, R25). -/
def State.withKeys (ki opc : B 16) (sqn : B 6) (s : State) : State :=
  { s with cfg := { s.cfg with ki := ki, opc := opc, sqn := sqn } }

theorem sameButKeys_iff {s t : State} : sameButKeys s t ↔ ∃ ki opc sqn, t = s.withKeys ki opc sqn :=
  ⟨fun h => ⟨_, _, _, h⟩, fun ⟨_, _, _, h⟩ => by subst h; rfl⟩

/-- The key material is in no command's view. -/
theorem SameView.withKeys (ki opc : B 16) (sqn : B 6) (s : State) : SameView s (s.withKeys ki opc sqn) :=
  ⟨rfl, rfl, fun _ => rfl, rfl⟩

/-- The four effects neither read nor write the key material. -/
theorem SameEffect.withKeys {ki opc : B 16} {sqn : B 6} {s t t' : State}
    (h : SameEffect s (s.withKeys ki opc sqn) t t') : t' = t.withKeys ki opc sqn := by
  cases h <;> rfl

/-- Settles O19: the key material is outside the view of every command but the APDU commands, and outside the four
effects. -/
theorem keysReachOnlyApduResponses : Obligations.KeysReachOnlyApduResponses := by
  intro i s s' t t' hkeys hsame h h'
  obtain ⟨ki, opc, sqn, rfl⟩ := sameButKeys_iff.mp hsame
  obtain rfl := (sameEffect_of_exec (.withKeys ki opc sqn s) (by simp [hkeys]) h h').withKeys
  exact ⟨rfl, sameButKeys_iff.mpr ⟨ki, opc, sqn, rfl⟩⟩

/-! ### WORK -/

/-- Each of the four effects writes `WORK` and reads nothing of it (R37). -/
theorem SameEffect.withWork {w : Working} {s t t' : State} (h : SameEffect s (s.withWork w) t t') : t' = t := by
  cases h <;> rfl

/-- No command reads what `WORK` held (R37). -/
theorem exec_withWork (i : Instr) (w : Working) (s : State) : exec i (s.withWork w) = exec i s := by
  have view : SameView s (s.withWork w) := ⟨rfl, rfl, fun _ => rfl, rfl⟩
  obtain ⟨t, t', h, h', same⟩ := exec_sameEffect i view fun _ => rfl
  rw [h, h', same.withWork]

/-- No frame reads what `WORK` held, well formed or not (R37). -/
theorem runFrame_withWork (frame : Bytes) (w : Working) (s : State) :
    runFrame frame (s.withWork w) = runFrame frame s := by
  unfold runFrame
  split
  · exact exec_withWork _ w s
  · rfl

/-- Every frame leaves `WORK` empty (R37). -/
theorem work_cleared_of_runFrame {frame : Bytes} {s t : State} (h : runFrame frame s = .next t) :
    t.work = .cleared := by
  obtain ⟨i, -, he⟩ | rfl := runFrame_cases h
  · obtain ⟨-, -, -, -, -, hwork⟩ := he.frame
    exact hwork
  · rfl

/-- Settles O18: `WORK` is in no command's view, and each effect ends by clearing it. -/
theorem workIsClearedAndNeverRead : Obligations.WorkIsClearedAndNeverRead :=
  fun frame s w => ⟨runFrame_withWork frame w s, fun _ => work_cleared_of_runFrame⟩

/-! ### The places of the sessions -/

/-- Where ids are distinct, tables with the same open sessions find the same session (R38, R275). -/
theorem find_eq_of_perm {t u : SessionTable} (hd : t.inUse.Nodup) (h : u.openSlots.Perm t.openSlots) (id : U16) :
    u.find id = t.find id := by
  have hdu : u.inUse.Nodup := (h.map _).nodup_iff.mpr hd
  ext k
  rw [find_eq_some_iff hdu, find_eq_some_iff hd, h.mem_iff]

/-- The allocator asks only whether an id is in use (R272). -/
theorem allocId_congr {used used' : List U16} (h : ∀ id, id ∈ used' ↔ id ∈ used) (fuel : Nat) (id : U16) :
    allocId used' fuel id = allocId used fuel id := by
  induction fuel generalizing id with
  | zero => rfl
  | succ fuel ih => simp only [allocId, h, ih]

/-- Tables with the same open sessions give a new session the same id (R272). -/
theorem candidateId_eq_of_perm {s : State} {table : SessionTable} (h : table.openSlots.Perm s.sess.openSlots) :
    ({ s with sess := table } : State).candidateId = s.candidateId :=
  allocId_congr (fun _ => (h.map _).mem_iff) _ _

/-- A new session joins the same open sessions, whichever slots they and it are in (R273). -/
theorem openSlots_put_perm {t u : SessionTable} (h : u.openSlots.Perm t.openSlots) (room : t.openCount < 4) (k : Slot)
    (hk : k.valid = true) : (u.put k).openSlots.Perm (t.put k).openSlots := by
  have room' : u.openCount < 4 := by rwa [SessionTable.openCount, h.length_eq]
  exact (openSlots_put u k hk room').trans ((h.cons k).trans (openSlots_put t k hk room).symm)

/-- A close leaves the same sessions open, whichever slots they are in (R274). -/
theorem openSlots_close_perm {t u : SessionTable} (hd : t.inUse.Nodup) (h : u.openSlots.Perm t.openSlots) (id : U16) :
    (u.close id).openSlots.Perm (t.close id).openSlots := by
  have hdu : u.inUse.Nodup := (h.map _).nodup_iff.mpr hd
  rw [openSlots_close u id hdu, openSlots_close t id hd]
  exact h.filter _

/-- Settles O20: tables with the same open sessions are in one view, and each of the four effects keeps them so. -/
theorem slotIndexIsNotObservable : Obligations.SlotIndexIsNotObservable := by
  intro i s t t' table hd hperm h h'
  have view : SameView s { s with sess := table } := ⟨rfl, rfl, find_eq_of_perm hd hperm, hperm.length_eq⟩
  have candidate := candidateId_eq_of_perm hperm
  cases sameEffect_of_exec view (fun _ => rfl) h h' with
  | response r => exact ⟨rfl, rfl, hperm⟩
  | opened e room =>
    refine ⟨by simp [candidate], by simp [candidate], ?_⟩
    simpa [candidate] using openSlots_put_perm hperm room ⟨true, s.candidateId, e.aid, e.type⟩ rfl
  | closed id => exact ⟨rfl, rfl, openSlots_close_perm hd hperm id⟩
  | called cmd => exact ⟨rfl, rfl, hperm⟩

end Sys2Proof.Machine
end

section
/-! SUPPORT. What a command writes of the state (R70): how far `put` and `close` change the slots, as one modification
of the list of slots. -/

namespace Sys2Proof.Machine

/-! ### One slot modified -/

/-- A list and itself differ at no place. -/
theorem countP_zip_self {α : Type} [DecidableEq α] (l : List α) : (l.zip l).countP (fun p => p.1 != p.2) = 0 := by
  induction l with
  | nil => rfl
  | cons a l ih => simpa using ih

/-- Modifying one element changes a list in at most one place. -/
theorem countP_zip_modify_le {α : Type} [DecidableEq α] (f : α → α) (l : List α) (j : Nat) :
    (l.zip (l.modify j f)).countP (fun p => p.1 != p.2) ≤ 1 := by
  induction l generalizing j with
  | nil => simp
  | cons a l ih =>
    cases j with
    | zero =>
      rw [List.modify_zero_cons, List.zip_cons_cons, List.countP_cons, countP_zip_self]
      split <;> omega
    | succ j => simpa using ih j

/-- Beside a list with one element modified, each element stands unchanged or modified. -/
theorem eq_or_eq_of_mem_zip_modify {α : Type} {f : α → α} {l : List α} {j : Nat} {p : α × α}
    (h : p ∈ l.zip (l.modify j f)) : p.2 = p.1 ∨ p.2 = f p.1 := by
  obtain ⟨k, hk, rfl⟩ := List.getElem_of_mem h
  rw [List.getElem_zip, List.getElem_modify]
  split
  · exact .inr rfl
  · exact .inl rfl

/-- R273: a session goes into one slot, or into none (`j = 4`) where no slot is free. -/
theorem slots_put (t : SessionTable) (k : Slot) : ∃ j, (t.put k).slots = t.slots.modify j fun _ => k := by
  unfold SessionTable.put
  split_ifs
  · exact ⟨0, rfl⟩
  · exact ⟨1, rfl⟩
  · exact ⟨2, rfl⟩
  · exact ⟨3, rfl⟩
  · exact ⟨4, rfl⟩

/-- R274: a close makes one slot invalid, or none (`j = 4`) where no session has the id. -/
theorem slots_close (t : SessionTable) (id : U16) : ∃ j, (t.close id).slots = t.slots.modify j Slot.closed := by
  unfold SessionTable.close
  split_ifs
  · exact ⟨0, rfl⟩
  · exact ⟨1, rfl⟩
  · exact ⟨2, rfl⟩
  · exact ⟨3, rfl⟩
  · exact ⟨4, rfl⟩

theorem slotsChanged_self (t : SessionTable) : slotsChanged t t = 0 := countP_zip_self _

/-- A table whose list of slots is another's with one slot modified differs from it in at most one. -/
theorem slotsChanged_le_of_modify {t u : SessionTable} {f : Slot → Slot} {j : Nat}
    (h : u.slots = t.slots.modify j f) : slotsChanged t u ≤ 1 := by
  rw [slotsChanged, h]
  exact countP_zip_modify_le f t.slots j

/-- R273: a new session changes at most one slot. -/
theorem slotsChanged_put_le (t : SessionTable) (k : Slot) : slotsChanged t (t.put k) ≤ 1 :=
  let ⟨_, hslots⟩ := slots_put t k
  slotsChanged_le_of_modify hslots

/-- R274: a close changes at most one slot. -/
theorem slotsChanged_close_le (t : SessionTable) (id : U16) : slotsChanged t (t.close id) ≤ 1 :=
  let ⟨_, hslots⟩ := slots_close t id
  slotsChanged_le_of_modify hslots

/-- R274: a close leaves each slot as it was or makes it invalid. -/
theorem eq_or_closed_of_mem_zip_close {t : SessionTable} {id : U16} {p : Slot × Slot}
    (h : p ∈ t.slots.zip (t.close id).slots) : p.2 = p.1 ∨ p.2 = p.1.closed := by
  obtain ⟨j, hslots⟩ := slots_close t id
  rw [hslots] at h
  exact eq_or_eq_of_mem_zip_modify h

/-! ### The frame of every command -/

/-- The state a command gives is one of the four effects. -/
theorem effect_of_exec {i : Instr} {s t : State} (h : exec i s = .next t) : Effect i s t := by
  obtain ⟨u, hu, heffect⟩ := exec_effect i s
  cases hu.symm.trans h
  exact heffect

/-- An OPEN_CHANNEL writes at most one slot and `NEXT_ID` (R70, R270). -/
theorem Effect.openChannel_frame {aid : Bytes} {s t : State} (h : Effect (.openChannel aid) s t) :
    slotsChanged s.sess t.sess ≤ 1 ∧
      t = { s with sess := t.sess, nextId := t.nextId, work := .cleared, out := t.out } := by
  cases h with
  | response r => exact ⟨(slotsChanged_self s.sess).trans_le (Nat.zero_le 1), rfl⟩
  | opened aid' e hi room known => exact ⟨slotsChanged_put_le s.sess _, rfl⟩
  | closed id hi => cases hi
  | called id cmd hi found => cases hi

/-- A CLOSE_CHANNEL writes at most one slot's `valid` (R70, R274). -/
theorem Effect.closeChannel_frame {id : U16} {s t : State} (h : Effect (.closeChannel id) s t) :
    slotsChanged s.sess t.sess ≤ 1 ∧
      (∀ p ∈ s.sess.slots.zip t.sess.slots, p.2 = p.1 ∨ p.2 = { p.1 with valid := false }) ∧
      t = { s with sess := t.sess, work := .cleared, out := t.out } := by
  cases h with
  | response r =>
    refine ⟨(slotsChanged_self s.sess).trans_le (Nat.zero_le 1), fun p hp => .inl ?_, rfl⟩
    exact (List.forall₂_zip (List.forall₂_same.mpr fun _ _ => rfl) hp).symm
  | opened aid e hi room known => cases hi
  | closed id' hi => exact ⟨slotsChanged_close_le s.sess id', fun p hp => eq_or_closed_of_mem_zip_close hp, rfl⟩
  | called id' cmd hi found => cases hi

/-- Every other command writes `WORK` and the response only, and FILE_ACCESS the collaborator's call count (R70,
R313). -/
theorem Effect.other_frame {i : Instr} {s t : State} (h : Effect i s t) (hopen : ∀ aid, i ≠ .openChannel aid)
    (hclose : ∀ id, i ≠ .closeChannel id) :
    t = { s with work := .cleared, out := t.out, fsCalls := t.fsCalls } ∧
      ((∀ id cmd, i ≠ .fileAccess id cmd) → t.fsCalls = s.fsCalls) := by
  cases h with
  | response r => exact ⟨rfl, fun _ => rfl⟩
  | opened aid e hi room known => exact absurd hi (hopen aid)
  | closed id hi => exact absurd hi (hclose id)
  | called id cmd hi found => exact ⟨rfl, fun hfile => absurd hi (hfile id cmd)⟩

/-- Settles O15: each of the four effects writes within the frame of its command, and `put` and `close` modify at most
one slot. -/
theorem onlyOpenAndCloseWriteState : Obligations.OnlyOpenAndCloseWriteState := by
  intro i s t h
  have heffect := effect_of_exec h
  refine ⟨?openChannel, ?closeChannel, heffect.other_frame⟩
  case openChannel =>
    rintro aid rfl
    exact heffect.openChannel_frame
  case closeChannel =>
    rintro id rfl
    exact heffect.closeChannel_frame

end Sys2Proof.Machine
end

section
/-! SUPPORT. Hexadecimal text (R62, R63): `unhex` inverts `hex` and halves lengths, so a text record that parses to a
valid record has exact widths (R381). -/

namespace Sys2Proof.Machine

/-! ### `hex` and `unhex` -/

/-- The character of a nibble has the nibble's value (R62, R63). -/
theorem hexValue_hexDigit : ∀ n < 16, hexValue (hexDigit n) = some n := by decide

/-- R63: two characters and a rest are defined where all three are. -/
theorem unhex_cons_cons_eq_some {hi lo : Byte} {rest x : Bytes} :
    unhex (hi :: lo :: rest) = some x ↔ ∃ h l more, hexValue hi = some h ∧ hexValue lo = some l ∧
      unhex rest = some more ∧ x = BitVec.ofNat 8 (16 * h + l) :: more := by
  simp only [unhex, Option.bind_eq_bind, Option.bind_eq_some_iff, Option.pure_def, Option.some.injEq, exists_and_left,
    eq_comm (a := x)]

/-- A byte is put together again from its nibbles. -/
theorem ofNat_nibbles (b : Byte) : BitVec.ofNat 8 (16 * (b.toNat / 16) + b.toNat % 16) = b := by
  rw [Nat.div_add_mod, BitVec.ofNat_toNat, BitVec.setWidth_eq]

/-- `unhex` inverts `hex` (R62, R63). -/
@[simp] theorem unhex_hex (x : Bytes) : unhex (hex x) = some x := by
  induction x with
  | nil => rfl
  | cons b x ih =>
    have hb := b.isLt
    exact unhex_cons_cons_eq_some.mpr ⟨_, _, x, hexValue_hexDigit (b.toNat / 16) (by omega),
      hexValue_hexDigit (b.toNat % 16) (by omega), ih, by rw [ofNat_nibbles]⟩

/-- A text that `unhex` defines has two characters for each byte (R63). -/
theorem length_of_unhex {text x : Bytes} (h : unhex text = some x) : text.length = 2 * x.length := by
  induction text using unhex.induct generalizing x with
  | case1 =>
    cases h
    rfl
  | case2 c => cases h
  | case3 hi lo rest ih =>
    obtain ⟨_, _, more, -, -, hmore, rfl⟩ := unhex_cons_cons_eq_some.mp h
    simp only [List.length_cons, ih hmore]
    omega

/-- Settles O54: by induction on the bytes, and on the text two characters at a time. -/
theorem hexTextRoundTrip : Obligations.HexTextRoundTrip := ⟨unhex_hex, fun _ _ => length_of_unhex⟩

/-! ### Text records -/

/-- The entries parsed stand for the text entries one by one (R381). -/
theorem forall₂_of_parseAids {texts : List (Bytes × Bytes)} {aids : List AidEntry} (h : parseAids texts = some aids) :
    List.Forall₂ (fun text e => unhex text.1 = some e.aid ∧ AppType.ofText text.2 = some e.type) texts aids := by
  induction texts generalizing aids with
  | nil =>
    cases h
    exact .nil
  | cons text texts ih =>
    simp only [parseAids, Option.bind_eq_bind, Option.bind_eq_some_iff] at h
    obtain ⟨aid, haid, type, htype, more, hmore, hout⟩ := h
    cases hout
    exact .cons ⟨haid, htype⟩ (ih hmore)

/-- Each text entry's AID is that of an entry parsed (R381). -/
theorem exists_of_mem_parseAids {texts : List (Bytes × Bytes)} {aids : List AidEntry}
    (h : parseAids texts = some aids) {text : Bytes × Bytes} (hmem : text ∈ texts) :
    ∃ e ∈ aids, unhex text.1 = some e.aid := by
  obtain ⟨hlength, hentries⟩ := List.forall₂_iff_get.mp (forall₂_of_parseAids h)
  obtain ⟨k, hk, rfl⟩ := List.getElem_of_mem hmem
  obtain ⟨haid, -⟩ := hentries k hk (hlength ▸ hk)
  exact ⟨_, List.get_mem _ _, haid⟩

/-- The fields of a text record that parses (R381). -/
theorem ConfigText.fields_of_parse {c : ConfigText} {r : ConfigRecord} (h : c.parse = some r) :
    unhex c.ki = some r.ki ∧ unhex c.opc = some r.opc ∧ unhex c.sqn = some r.sqn ∧
      parseAids c.aids = some r.aids := by
  simp only [ConfigText.parse, Option.bind_eq_bind, Option.bind_eq_some_iff] at h
  obtain ⟨ki, hki, opc, hopc, sqn, hsqn, aids, haids, hout⟩ := h
  cases hout
  exact ⟨hki, hopc, hsqn, haids⟩

/-- R26, R381: the conditions on a registry. -/
theorem validAids_iff {aids : List AidEntry} :
    validAids aids = true ↔
      (∀ e ∈ aids, 1 ≤ e.aid.length ∧ e.aid.length ≤ 16) ∧ (aids.map (·.aid)).Nodup ∧ aids.length ≤ 255 := by
  simp only [validAids, Bool.and_eq_true, List.all_eq_true, decide_eq_true_eq, and_assoc]
  rfl

/-- Settles O53: each field of a valid record has its exact number of bytes, and the text two characters for each. -/
theorem textRecordHasExactWidths : Obligations.TextRecordHasExactWidths := by
  intro c r hparse hvalid
  obtain ⟨hki, hopc, hsqn, haids⟩ := ConfigText.fields_of_parse hparse
  obtain ⟨kiBytes, opcBytes, sqnBytes, registry⟩ := ConfigRecord.valid_iff.mp hvalid
  obtain ⟨aidBytes, -, entries⟩ := validAids_iff.mp registry
  refine ⟨by rw [length_of_unhex hki, kiBytes], by rw [length_of_unhex hopc, opcBytes],
    by rw [length_of_unhex hsqn, sqnBytes], (forall₂_of_parseAids haids).length_eq.trans_le entries, fun text hmem => ?_⟩
  obtain ⟨e, he, haid⟩ := exists_of_mem_parseAids haids hmem
  have bounds := aidBytes e he
  have width := length_of_unhex haid
  omega

end Sys2Proof.Machine
end

section
/-! SUPPORT. The decoder and the encoder are inverse to each other (R91 to R94, R104), and what a frame that is refused
and a frame that runs are answered. -/

namespace Sys2Proof

/-! ### From a command to its frame and back -/

/-- The decoder accepts a frame exactly where its opcode has a format, the fields of the format take up the whole rest,
and the opcode and the fields are a command (R91). -/
theorem decode_eq_ok_iff {frame : Bytes} {i : Instr} :
    decode frame = .ok i ↔ ∃ op rest kinds fs, frame = op :: rest ∧ opcodeFormat op = some kinds ∧
      readFields kinds rest = some (fs, []) ∧ assemble op fs = some i := by
  constructor
  · intro h
    unfold decode at h
    split at h
    · cases h
    · rename_i op rest
      split at h
      · cases h
      · rename_i kinds hkinds
        split at h
        · cases h
        · cases h
        · rename_i fs hfs
          split at h
          · rename_i j hj
            cases h
            exact ⟨op, rest, kinds, fs, rfl, hkinds, hfs, hj⟩
          · cases h
  · rintro ⟨op, rest, kinds, fs, rfl, hkinds, hfs, hi⟩
    simp only [decode, hkinds, hfs, hi]

@[simp] theorem apduCommand_gsmHeader (id : U16) (body : Bytes) :
    apduCommand id (gsmHeader ++ body) = .authenticateGsm id body := rfl

@[simp] theorem apduCommand_umtsHeader (id : U16) (body : Bytes) :
    apduCommand id (umtsHeader ++ body) = .authenticateUmts id body := rfl

/-- An APDU with neither AUTHENTICATE header is APDU_EXEC (R104). -/
theorem apduCommand_of_plain {id : U16} {apdu : Bytes} (h : plainApdu apdu = true) :
    apduCommand id apdu = .apduExec id apdu := by
  obtain ⟨hgsm, humts⟩ : apdu.take 5 ≠ gsmHeader ∧ apdu.take 5 ≠ umtsHeader := by simpa [plainApdu] using h
  simp [apduCommand, hgsm, humts]

/-- A well-formed command is the one its opcode and its fields stand for (R92, R93, R104). -/
theorem assemble_fieldsOf {i : Instr} (h : i.wf = true) : assemble (opcodeOf i) (fieldsOf i) = some i := by
  cases i
  case apduExec id apdu =>
    have hplain : plainApdu apdu = true := (Bool.and_eq_true_iff.mp h).2
    exact congrArg some (apduCommand_of_plain hplain)
  all_goals rfl

/-- Settles O1: the frame's opcode gives the command's format, the fields are read back as they were written, and they
stand for the command. -/
theorem decodeInvertsEncode : Obligations.DecodeInvertsEncode := by
  intro i hwf
  have hread := readFields_writeFields (fieldsOf i) [] (fields_fit i hwf)
  rw [List.append_nil] at hread
  exact decode_eq_ok_iff.mpr ⟨_, _, _, _, rfl, opcodeFormat_opcodeOf i, hread, assemble_fieldsOf hwf⟩

/-! ### From a frame to its command and back -/

/-- A number of two bytes is written as these bytes (R61). -/
@[simp] theorem u16Bytes_u16OfBytes (hi lo : Byte) : u16Bytes (u16OfBytes hi lo) = [hi, lo] := by
  have hhi := hi.isLt
  have hlo := lo.isLt
  have high : (u16OfBytes hi lo).extractLsb' 8 8 = hi := by
    apply BitVec.eq_of_toNat_eq
    simp only [u16OfBytes, BitVec.extractLsb'_toNat, BitVec.toNat_ofNat, Nat.shiftRight_eq_div_pow]
    omega
  have low : (u16OfBytes hi lo).extractLsb' 0 8 = lo := by
    apply BitVec.eq_of_toNat_eq
    simp only [u16OfBytes, BitVec.extractLsb'_toNat, BitVec.toNat_ofNat, Nat.shiftRight_eq_div_pow]
    omega
  rw [u16Bytes, high, low]

/-- The bytes split off and the rest are the bytes there were. -/
theorem splitBytes_eq_some {n : Nat} {b x rest : Bytes} (h : splitBytes n b = some (x, rest)) :
    x.length = n ∧ x ++ rest = b := by
  obtain ⟨hle, rfl, rfl⟩ : n ≤ b.length ∧ b.take n = x ∧ b.drop n = rest := by simpa [splitBytes] using h
  exact ⟨List.length_take_of_le hle, List.take_append_drop n b⟩

/-- A field that is read fits its kind, and its bytes and the rest are the bytes there were (R91). -/
theorem writeField_of_readField {k : FieldKind} {b rest : Bytes} {f : Field} (h : readField k b = some (f, rest)) :
    f.fits = true ∧ writeField f ++ rest = b := by
  unfold readField at h
  split at h
  case h_1 v tail =>
    cases h
    exact ⟨rfl, rfl⟩
  case h_2 hi lo tail =>
    cases h
    exact ⟨rfl, by simp [writeField]⟩
  case h_3 len tail =>
    obtain ⟨⟨x, y⟩, hsplit, heq⟩ := Option.map_eq_some_iff.mp h
    cases heq
    obtain ⟨hlen, rfl⟩ := splitBytes_eq_some hsplit
    have hlt := len.isLt
    exact ⟨by simpa [Field.fits, fitsLV1, hlen] using hlt, by simp [writeField, lv1, hlen]⟩
  case h_4 hi lo tail =>
    obtain ⟨⟨x, y⟩, hsplit, heq⟩ := Option.map_eq_some_iff.mp h
    cases heq
    obtain ⟨hlen, rfl⟩ := splitBytes_eq_some hsplit
    have hlt := (u16OfBytes hi lo).isLt
    exact ⟨by simpa [Field.fits, fitsLV2, hlen] using hlt, by simp [writeField, lv2, hlen]⟩
  case h_5 => cases h

/-- Fields that are read fit their kinds, and their bytes and the rest are the bytes there were (R91). -/
theorem writeFields_of_readFields {kinds : List FieldKind} {b rest : Bytes} {fs : List Field}
    (h : readFields kinds b = some (fs, rest)) :
    (∀ f ∈ fs, f.fits = true) ∧ fs.flatMap writeField ++ rest = b := by
  induction kinds generalizing b fs with
  | nil =>
    cases h
    exact ⟨by simp, rfl⟩
  | cons k kinds ih =>
    simp only [readFields, Option.bind_eq_bind, Option.bind_eq_some_iff] at h
    obtain ⟨⟨f, mid⟩, hf, ⟨gs, rest'⟩, hgs, hout⟩ := h
    cases hout
    obtain ⟨ffits, rfl⟩ := writeField_of_readField hf
    obtain ⟨gsfit, rfl⟩ := ih hgs
    exact ⟨List.forall_mem_cons.mpr ⟨ffits, gsfit⟩, by simp⟩

/-- The command of an APDU is carried by opcode 0x05 with the session and that APDU, and is well formed where the APDU
fits its field (R92, R104). -/
theorem apduCommand_frame (id : U16) (apdu : Bytes) :
    opcodeOf (apduCommand id apdu) = 0x05 ∧ fieldsOf (apduCommand id apdu) = [.u16 id, .lv2 apdu] ∧
      (apduCommand id apdu).wf = fitsLV2 apdu := by
  have split5 := List.take_append_drop 5 apdu
  by_cases hgsm : apdu.take 5 = gsmHeader
  · rw [hgsm] at split5
    rw [← split5, apduCommand_gsmHeader]
    exact ⟨rfl, rfl, rfl⟩
  · by_cases humts : apdu.take 5 = umtsHeader
    · rw [humts] at split5
      rw [← split5, apduCommand_umtsHeader]
      exact ⟨rfl, rfl, rfl⟩
    · have plain : plainApdu apdu = true := by simp [plainApdu, hgsm, humts]
      rw [apduCommand_of_plain plain]
      exact ⟨rfl, rfl, by simp [Instr.wf, plain]⟩

/-- The command of an opcode and fields that fit is well formed, and has that opcode and those fields (R92, R93). -/
theorem frame_of_assemble {op : Byte} {fs : List Field} {i : Instr} (h : assemble op fs = some i)
    (fit : ∀ f ∈ fs, f.fits = true) : i.wf = true ∧ opcodeOf i = op ∧ fieldsOf i = fs := by
  have opcode : ∀ c : Byte, op.toNat = c.toNat → c = op := fun c hc => (BitVec.eq_of_toNat_eq hc).symm
  unfold assemble at h
  split at h
  case h_5 id apdu hop =>
    obtain ⟨hopcode, hfields, hwf⟩ := apduCommand_frame id apdu
    cases h
    exact ⟨by simpa [hwf, Field.fits] using fit, hopcode.trans (opcode _ hop), hfields⟩
  case h_11 => cases h
  all_goals
    rename_i hop
    cases h
    exact ⟨by simp_all [Instr.wf, Field.fits], opcode _ hop, rfl⟩

/-- Settles O2: the fields read stand in the frame byte for byte, and the command has the frame's opcode and those
fields. -/
theorem everyFrameIsItsCommandsEncoding : Obligations.EveryFrameIsItsCommandsEncoding := by
  intro frame i h
  obtain ⟨op, rest, kinds, fs, rfl, -, hread, hi⟩ := decode_eq_ok_iff.mp h
  obtain ⟨fit, hbytes⟩ := writeFields_of_readFields hread
  obtain ⟨hwf, hop, hfields⟩ := frame_of_assemble hi fit
  refine ⟨hwf, ?_⟩
  rw [encode, hop, hfields, ← hbytes, List.append_nil]

/-- The opcodes without a format are exactly the reserved ones (R93, R94). -/
theorem opcodeFormat_eq_none_iff {op : Byte} :
    opcodeFormat op = none ↔ op.toNat = 0x00 ∨ (0x07 ≤ op.toNat ∧ op.toNat ≤ 0x0F) ∨ 0x14 ≤ op.toNat := by
  unfold opcodeFormat
  split
  case h_11 =>
    simp only [imp_false, true_iff] at *
    omega
  all_goals
    rename_i hop
    simp [hop]

/-- Settles O3: each of the ten frames is the encoding of its command, which is well formed. -/
theorem sampleFramesDecode : Obligations.SampleFramesDecode :=
  ⟨decodeInvertsEncode .listAids rfl,
    decodeInvertsEncode (.openChannel [0xA0, 0x07]) rfl,
    decodeInvertsEncode (.lookup 0x0102) rfl,
    decodeInvertsEncode (.fileAccess 0x0101 [0x42, 0x30]) rfl,
    decodeInvertsEncode (.apduExec 0x0101 [0x00, 0x88]) rfl,
    decodeInvertsEncode (.aesEncrypt [0xAA, 0xAB] [0xBB]) rfl,
    decodeInvertsEncode (.gsmAuth [0xAA] [0xBB, 0xCC]) rfl,
    decodeInvertsEncode (.umtsAuth [0xA1] [0xA2, 0xB2] [] [0xA4] [0xA5, 0xB5, 0xC5]) rfl,
    decodeInvertsEncode (.classify [0x00, 0x88] 0x01) rfl,
    decodeInvertsEncode (.authenticateGsm 0x0101 [0x10]) rfl⟩

end Sys2Proof

namespace Sys2Proof.Machine

/-! ### What a frame is answered -/

/-- A frame that does not decode raises `ERR_FRAME` (R91). -/
theorem runFrame_of_error {frame : Bytes} {e : FrameError} (h : decode frame = .error e) (s : State) :
    runFrame frame s = .next (s.raise .frame) := by
  simp only [runFrame, h]

/-- Settles O5: `ERR_FRAME` is raised, and taking an error writes `WORK` and the response only. -/
theorem malformedFramesGetErrFrame : Obligations.MalformedFramesGetErrFrame :=
  fun _ _ s h => runFrame_of_error h s

/-- Settles O4: a reserved opcode has no format, so the decoder refuses the frame whatever follows. -/
theorem reservedOpcodesGetErrFrame : Obligations.ReservedOpcodesGetErrFrame := by
  intro op rest s hop
  have refused : decode (op :: rest) = .error .reservedOpcode := by
    simp only [decode, opcodeFormat_eq_none_iff.mpr hop]
  exact ⟨refused, malformedFramesGetErrFrame _ _ s refused⟩

/-- A command's effect leaves a response frame (R95). -/
theorem Effect.out_eq {i : Instr} {s t : State} (h : Effect i s t) : ∃ r : Response, t.out = some r.frame := by
  cases h <;> exact ⟨_, rfl⟩

/-- A response frame is one of the seven result codes, with a payload only under `DONE` (R95). -/
theorem Response.frame_eq_cons (r : Response) :
    ∃ rc payload, r.frame = rc :: payload ∧ rc.toNat ≤ 0x06 ∧ (rc ≠ 0x00 → payload = []) := by
  cases r with
  | done payload => exact ⟨0x00, payload, rfl, by decide, fun h => absurd rfl h⟩
  | error e => exact ⟨e.rc, [], rfl, by cases e <;> decide, fun _ => rfl⟩

/-- Settles O17: a frame ends with one of the effects of its command or with `ERR_FRAME`, and each gives out a response
frame. -/
theorem responsesHaveTheSevenCodes : Obligations.ResponsesHaveTheSevenCodes := by
  intro frame s
  obtain ⟨t, hrun, hcases⟩ := runFrame_next frame s
  obtain ⟨r, hr⟩ : ∃ r : Response, t.out = some r.frame := by
    obtain ⟨i, -, he⟩ | rfl := hcases
    · exact he.out_eq
    · exact ⟨.error .frame, rfl⟩
  obtain ⟨rc, payload, hframe, hrc, hpayload⟩ := r.frame_eq_cons
  exact ⟨t, rc, payload, hrun, hframe ▸ hr, hrc, hpayload⟩

end Sys2Proof.Machine
end

section
/-! SUPPORT. Milenage computes the functions f1 to f5* of TS 35.206 (R193 to R201), through the fact that placing a
block at an offset is a rotation (R192, R201); and what UMTS_AUTH answers (R190). -/

namespace Sys2Proof.Machine

/-! ### Placing a block is rotating it -/

/-- `int` of a string and one more byte (R12). -/
theorem intOf_append_singleton (x : Bytes) (b : Byte) : intOf (x ++ [b]) = intOf x * 256 + b.toNat := by
  simp [intOf]

/-- The bytes of `int(X)`, counted from its least significant end, are those of `X` backwards (R12). -/
theorem ofNat_intOf_reverse (x : Bytes) (j : Nat) :
    BitVec.ofNat 8 (intOf x.reverse / 2 ^ (8 * j)) = x.getD j 0 := by
  induction x generalizing j with
  | nil => simp [intOf]
  | cons b x ih =>
    have hb := b.isLt
    rw [List.reverse_cons, intOf_append_singleton]
    cases j with
    | zero =>
      apply BitVec.eq_of_toNat_eq
      simpa [Nat.mod_eq_of_lt] using hb
    | succ j =>
      have shift : (intOf x.reverse * 256 + b.toNat) / 2 ^ (8 * (j + 1)) = intOf x.reverse / 2 ^ (8 * j) := by
        rw [show 8 * (j + 1) = 8 + 8 * j by omega, pow_add, ← Nat.div_div_eq_div_mul]
        congr 1
        omega
      rw [shift, ih, List.getD_cons_succ]

/-- Byte `i` of a block is the byte of its 128-bit string that ends at bit `8 * (15 - i)` (R12, R201). -/
theorem extractLsb'_bitsOf (x : B 16) {i : Nat} (h : i < 16) :
    (bitsOf x).extractLsb' (8 * (15 - i)) 8 = x.toList.getD i 0 := by
  have digit := ofNat_intOf_reverse x.toList.reverse (15 - i)
  have back : x.toList.reverse.getD (15 - i) 0 = x.toList.getD i 0 := by
    rw [List.getD_reverse _ (by simp; omega)]
    congr 1
    simp
    omega
  rw [List.reverse_reverse, back] at digit
  rw [← digit]
  apply BitVec.eq_of_getLsbD_eq
  intro k hk
  have inside : 8 * (15 - i) + k < 128 := by omega
  simp only [bitsOf, BitVec.getLsbD_extractLsb', BitVec.getLsbD_ofNat, hk, inside, Nat.testBit_div_two_pow,
    Nat.add_comm k, decide_true, Bool.true_and]

/-- A rotation by whole bytes moves whole bytes. -/
theorem extractLsb'_rotateLeft (v : BitVec 128) {m q : Nat} (hm : m < 16) (hq : q < 16) :
    (v.rotateLeft (8 * m)).extractLsb' (8 * q) 8 = v.extractLsb' (8 * ((q + 16 - m) % 16)) 8 := by
  apply BitVec.eq_of_getLsbD_eq
  intro k hk
  have inside : 8 * q + k < 128 := by omega
  have amount : 8 * m % 128 = 8 * m := Nat.mod_eq_of_lt (by omega)
  simp only [BitVec.getLsbD_extractLsb', BitVec.getLsbD_rotateLeft, hk, inside, amount, decide_true, Bool.true_and]
  by_cases wraps : 8 * q + k < 8 * m
  · simp only [wraps, decide_true, cond_true]
    congr 1
    omega
  · simp only [wraps, decide_false, cond_false]
    congr 1
    omega

/-- `rot(X, 8m)` byte by byte (R201). -/
theorem getD_rot (x : B 16) {m j : Nat} (hm : m < 16) (hj : j < 16) :
    (rot x (8 * m)).toList.getD j 0 = x.toList.getD ((j + m) % 16) 0 := by
  have byte : (rot x (8 * m)).toList.getD j 0 = ((bitsOf x).rotateLeft (8 * m)).extractLsb' (8 * (15 - j)) 8 := by
    simp [rot, blockOf, List.getD_eq_getElem?_getD, hj]
  have source : (15 - j + 16 - m) % 16 = 15 - (j + m) % 16 := by omega
  rw [byte, extractLsb'_rotateLeft _ hm (by omega), source, extractLsb'_bitsOf x (by omega)]

/-- Placing a block at offset `k` is rotating it left by the bytes that are left of sixteen (R192, R201). -/
theorem place_eq_rot (x : B 16) {k : Nat} (hk : k < 16) : place x k = rot x (8 * ((16 - k) % 16)) := by
  apply block_ext
  intro j hj
  have source : (j + 16 - k) % 16 < 16 := Nat.mod_lt _ (by decide)
  have target : ((j + 16 - k) % 16 + k) % 16 = j := by omega
  have placed := getD_place x k _ hk source
  rw [target] at placed
  rw [placed, getD_rot x (by omega) hj]
  congr 1
  omega

theorem place_four (x : B 16) : place x 4 = rot x 96 := place_eq_rot x (by decide)

theorem place_eight (x : B 16) : place x 8 = rot x 64 := place_eq_rot x (by decide)

theorem place_twelve (x : B 16) : place x 12 = rot x 32 := place_eq_rot x (by decide)

theorem rot_zero (x : B 16) : rot x 0 = x :=
  block_ext fun j hj => by rw [← Nat.mul_zero 8, getD_rot x (by decide) hj, Nat.add_zero, Nat.mod_eq_of_lt hj]

/-! ### Milenage -/

/-- With a cipher, an invocation of the AES unit leaves its result as the AES state (R141, R192). -/
theorem cipherStep_true (ki x : B 16) (w : Working) :
    cipherStep true ki x w = some { w with aesState := aes ki x, keySchedule := keyExpansion ki } := rfl

/-- Without a cipher there is no outcome (R205). -/
theorem milenage_false (ki opc : B 16) (sqn : B 6) (rand autn : B 16) :
    milenage false ki opc sqn rand autn = none := rfl

/-- Steps 1 to 4 leave TEMP, OUT2, the recovered SQN and MAC-A as TS 35.206 gives them (R193 to R196). -/
theorem milenageStart_true (ki opc rand autn : B 16) :
    ∃ w, milenageStart true ki opc rand autn = some w ∧ w.temp = tsTemp ki opc rand ∧
      w.out2 = tsOut ki opc rand 0 0x01 ∧ w.sqn = tsSqn ki opc rand autn ∧
      w.macA = tsF1 ki opc rand (tsSqn ki opc rand autn) (slice autn.toList 6 2) := by
  have out2 : bxor (aes ki (bxor (bxor (aes ki (bxor rand opc)) opc) (constByte 0x01))) opc =
      tsOut ki opc rand 0 0x01 := by
    rw [tsOut, rot_zero, tsTemp]
  simp only [milenageStart, cipherStep_true, Option.bind_eq_bind, Option.bind_some, Option.pure_def, out2, place_eight]
  exact ⟨_, rfl, rfl, rfl, rfl, rfl⟩

/-- The SYNC_FAILURE branch gives the re-synchronisation token over the stored SQN (R198). -/
theorem milenageSync_true {ki opc rand : B 16} {w : Working} (sqnStored : B 6) (temp : w.temp = tsTemp ki opc rand) :
    (milenageSync true ki opc sqnStored w).map Prod.snd = some (.syncFailure (tsAuts ki opc rand sqnStored)) := by
  simp only [milenageSync, cipherStep_true, Option.bind_eq_bind, Option.bind_some, Option.pure_def, Option.map_some,
    temp, place_four, place_eight]
  rfl

/-- The OK branch gives RES, CK and IK (R194, R200). -/
theorem milenageOk_true {ki opc rand : B 16} {w : Working} (temp : w.temp = tsTemp ki opc rand)
    (out2 : w.out2 = tsOut ki opc rand 0 0x01) :
    (milenageOk true ki opc w).map Prod.snd =
      some (.ok (tsF2 ki opc rand) (tsF3 ki opc rand) (tsF4 ki opc rand)) := by
  simp only [milenageOk, cipherStep_true, Option.bind_eq_bind, Option.bind_some, Option.pure_def, Option.map_some,
    temp, out2, place_eight, place_twelve]
  rfl

/-- With a cipher, Milenage ends with the outcome of the authentication by f1 to f5* (R191, R197, R201). -/
theorem milenage_true (ki opc : B 16) (sqn : B 6) (rand autn : B 16) :
    ∃ w, milenage true ki opc sqn rand autn = some (w, tsAuthenticate ki opc sqn rand autn) := by
  obtain ⟨w, hstart, temp, out2, hsqn, hmac⟩ := milenageStart_true ki opc rand autn
  have outcome :
      (milenage true ki opc sqn rand autn).map Prod.snd = some (tsAuthenticate ki opc sqn rand autn) := by
    simp only [milenage, hstart, Option.bind_eq_bind, Option.bind_some, hsqn, hmac, tsAuthenticate]
    split
    · exact milenageSync_true sqn temp
    · split
      · rfl
      · exact milenageOk_true temp out2
  obtain ⟨⟨v, o⟩, hv, rfl⟩ := Option.map_eq_some_iff.mp outcome
  exact ⟨v, hv⟩

/-! ### UMTS_AUTH -/

/-- Settles O40: the width check comes first, and operands of the right widths are read byte for byte, so the payload
is that of the outcome of Milenage. -/
theorem umtsAuthResult : Obligations.UmtsAuthResult := by
  intro ki opc sqn rand autn k o q r a s
  have widths : ¬ (k.toList.length ≠ 16 ∨ o.toList.length ≠ 16 ∨ q.toList.length ≠ 6 ∨
      r.toList.length ≠ 16 ∨ a.toList.length ≠ 16) := by simp
  refine ⟨fun wrong => ?_, fun off => ?_, fun on => ?_⟩
  · simp only [exec, execUmtsAuth, if_pos wrong]
    rfl
  · simp only [exec, execUmtsAuth, if_neg widths, off, milenage_false]
    rfl
  · obtain ⟨w, hw⟩ := milenage_true k o q r a
    simp only [exec, execUmtsAuth, if_neg widths, on, fixed_toList, hw]
    cases tsAuthenticate k o q r a <;> rfl

end Sys2Proof.Machine
end

section
/-! SUPPORT. The two AUTHENTICATE commands (R104): they are APDU_EXEC of their header and body (R240), and what they
answer on an admitting session to a body of the right form (R241, R243, R244). -/

namespace Sys2Proof.Machine

/-! ### AUTHENTICATE as an APDU -/

/-- The router takes the GSM-context header to the GSM path, on the types admitting it (R234, R242). -/
theorem routeApdu_gsmHeader (t : AppType) (body : Bytes) (s : State) :
    s.routeApdu t (gsmHeader ++ body) = if t.admitsGsm then s.gsmPath body else s.cardStatus .applicationError := by
  cases t <;> rfl

/-- The router takes the UMTS-context header to the UMTS path, on the types admitting it (R235, R242). -/
theorem routeApdu_umtsHeader (t : AppType) (body : Bytes) (s : State) :
    s.routeApdu t (umtsHeader ++ body) = if t.admitsUmts then s.umtsPath body else s.cardStatus .applicationError := by
  cases t <;> rfl

/-- Settles O46: both commands look the session up first, and on its type the router decides as they do. -/
theorem authenticateIsApduExecOfItsHeader : Obligations.AuthenticateIsApduExecOfItsHeader := by
  intro id body s
  change exec (.authenticateGsm id body) s = exec (.apduExec id (gsmHeader ++ body)) s ∧
    exec (.authenticateUmts id body) s = exec (.apduExec id (umtsHeader ++ body)) s
  simp only [exec, execAuthenticateGsm, execAuthenticateUmts, execApduExec, routeApdu_gsmHeader, routeApdu_umtsHeader,
    and_self]

/-! ### AUTHENTICATE on an open session -/

/-- On an open session whose type admits the GSM context the command is the GSM path (R234, R242). -/
theorem exec_authenticateGsm_of_open {k : Slot} {s : State} (distinct : s.sess.inUse.Nodup)
    (hopen : k ∈ s.sess.openSlots) (admits : k.type.admitsGsm = true) (body : Bytes) :
    exec (.authenticateGsm k.id body) s = .next (s.gsmPath body) := by
  have found : s.sess.find k.id = some k := (find_eq_some_iff distinct).mpr ⟨hopen, rfl⟩
  simp only [exec, execAuthenticateGsm, found, admits, if_true]

/-- On an open session whose type admits the UMTS context the command is the UMTS path (R235, R242). -/
theorem exec_authenticateUmts_of_open {k : Slot} {s : State} (distinct : s.sess.inUse.Nodup)
    (hopen : k ∈ s.sess.openSlots) (admits : k.type.admitsUmts = true) (body : Bytes) :
    exec (.authenticateUmts k.id body) s = .next (s.umtsPath body) := by
  have found : s.sess.find k.id = some k := (find_eq_some_iff distinct).mpr ⟨hopen, rfl⟩
  simp only [exec, execAuthenticateUmts, found, admits, if_true]

/-! ### A body of the right form -/

/-- A trailing `Le` is ignored (R101, R241). -/
theorem apduData_append {lc : Nat} {data le : Bytes} (hdata : data.length = lc) (hle : le.length ≤ 1) :
    apduData lc (data ++ le) = some data := by
  have admitted : (data ++ le).length = lc ∨ (data ++ le).length = lc + 1 := by
    rw [List.length_append]
    omega
  rw [apduData, if_pos admitted, List.take_left' hdata]

/-- A string read from its place between two others (R10). -/
theorem slice_append {n off : Nat} (before after : Bytes) (x : B n) (h : before.length = off) :
    slice (before ++ (x.toList ++ after)) off n = x := by
  apply block_ext
  intro i hi
  rw [getD_slice _ _ _ _ hi, ← h, List.getD_append_right _ _ _ _ (Nat.le_add_right _ _), Nat.add_sub_cancel_left,
    List.getD_append _ _ _ _ (by simpa using hi)]

/-- The GSM path on the body `10 ‖ RAND` (R241, R243). -/
theorem gsmPath_of_wellFormed (rand : B 16) {le : Bytes} (hle : le.length ≤ 1) (s : State) :
    s.gsmPath (0x10 :: rand.toList ++ le) =
      (s.withWork (gsmWork s.cfg.ki rand)).cardRespond (gsmCard (Config.comp128v1 s.cfg.ki rand)) := by
  have hdata : apduData 0x11 (0x10 :: rand.toList ++ le) = some (0x10 :: rand.toList) :=
    apduData_append (by simp) hle
  have hrand : slice (0x10 :: rand.toList) 1 16 = rand := by simpa using slice_append [0x10] [] rand rfl
  simp only [State.gsmPath, hdata, hrand]
  rfl

/-- The UMTS path on the body `10 ‖ RAND ‖ 10 ‖ AUTN` (R241, R244): whatever the outcome, the card response. -/
theorem umtsPath_of_wellFormed (rand autn : B 16) {le : Bytes} (hle : le.length ≤ 1) (s : State) :
    s.umtsPath (0x10 :: rand.toList ++ 0x10 :: autn.toList ++ le) =
      s.cardRespond (umtsCard
        ((milenage s.cfg.cipherAvailable s.cfg.ki s.cfg.opc s.cfg.sqn rand autn).map Prod.snd)) := by
  have hdata : apduData 0x22 (0x10 :: rand.toList ++ 0x10 :: autn.toList ++ le) =
      some (0x10 :: rand.toList ++ 0x10 :: autn.toList) := apduData_append (by simp) hle
  have hrand : slice (0x10 :: rand.toList ++ 0x10 :: autn.toList) 1 16 = rand :=
    slice_append [0x10] (0x10 :: autn.toList) rand rfl
  have hautn : slice (0x10 :: rand.toList ++ 0x10 :: autn.toList) 18 16 = autn := by
    have placed := slice_append (off := 18) (0x10 :: rand.toList ++ [0x10]) [] autn (by simp)
    rw [List.append_nil, List.append_assoc] at placed
    exact placed
  have first : (0x10 :: rand.toList ++ 0x10 :: autn.toList).getD 0 0 = lengthByte := rfl
  have second : (0x10 :: rand.toList ++ 0x10 :: autn.toList).getD 17 0 = lengthByte := by
    rw [List.getD_append_right _ _ _ _ (by simp)]
    simp [lengthByte]
  simp only [State.umtsPath, hdata, hrand, hautn, first, second, ne_eq, not_true_eq_false, or_self, if_false]
  cases milenage s.cfg.cipherAvailable s.cfg.ki s.cfg.opc s.cfg.sqn rand autn <;> rfl

/-- A GSM-context card response as the `LV2` field of the response frame: fourteen bytes (R96, R105). -/
theorem lv2_gsmCard (out : B 12) :
    lv2 (gsmCard out) = [0x00, 0x0E] ++ (0x04 :: out.toList.take 4) ++ (0x08 :: out.toList.drop 4) := by
  have width : (gsmCard out).length = 14 := by simp [gsmCard]
  rw [lv2, width]
  simp [gsmCard, u16Bytes]

/-- Settles O47: the session found admits the GSM context, and the body has the form the GSM path asks for. -/
theorem authenticateGsmResult : Obligations.AuthenticateGsmResult := by
  rintro _ rand le k s distinct hopen rfl type hle
  have admits : k.type.admitsGsm = true := by
    cases ht : k.type with
    | other => exact absurd ht type
    | usim => rfl
    | isim => rfl
  rw [exec_authenticateGsm_of_open distinct hopen admits, gsmPath_of_wellFormed rand hle, State.cardRespond,
    lv2_gsmCard]
  rfl

/-- Settles O48: the session found admits the UMTS context, the body has the form the UMTS path asks for, and the card
response is that of the outcome of Milenage. -/
theorem authenticateUmtsResult : Obligations.AuthenticateUmtsResult := by
  rintro _ rand autn le k s distinct hopen rfl type hle
  have admits : k.type.admitsUmts = true := by rw [type]; rfl
  rw [exec_authenticateUmts_of_open distinct hopen admits, umtsPath_of_wellFormed rand autn hle]
  cases hc : s.cfg.cipherAvailable with
  | false => rfl
  | true =>
    obtain ⟨w, hw⟩ := milenage_true s.cfg.ki s.cfg.opc s.cfg.sqn rand autn
    rw [hw]
    cases tsAuthenticate s.cfg.ki s.cfg.opc s.cfg.sqn rand autn <;> rfl

end Sys2Proof.Machine
end

section
/-! SUPPORT. The AES unit: the field of R145 and the S-box (R146, R147), the three round functions byte by byte (R148,
R149, R151) and why each is one to one, and the words of the key expansion (R150). -/

namespace Sys2Proof.Machine

/-! ### AES_ENCRYPT -/

/-- The response is read from the AES state in `WORK`, and `WORK` is left empty (R35, R37, R140). -/
theorem respond_aesState (k y : B 16) (s : State) :
    (s.withWork (aesWork k y)).respond (aesWork k y).aesState.toList =
      { s with work := .cleared, out := some (0x00 :: y.toList) } := rfl

/-- Settles O30: the width check comes first, and operands of the right width are read byte for byte, so what is left
is the cipher condition. -/
theorem aesEncryptResult : Obligations.AesEncryptResult := by
  intro key pt k x s
  have widths : ¬ (k.toList.length ≠ 16 ∨ x.toList.length ≠ 16) := by simp
  refine ⟨fun wrong => ?_, fun off => ?_, fun on => ?_⟩
  · simp only [exec, execAesEncrypt, if_pos wrong]
    rfl
  · simp only [exec, execAesEncrypt, if_neg widths, off, aesCall]
    rfl
  · simp only [exec, execAesEncrypt, if_neg widths, on, aesCall, fixed_toList, if_true, State.withWork_work,
      respond_aesState]

/-! ### The field -/

/-- The reduction in `xtime` is decided by the top bit (R145). -/
theorem xtime_eq_msb (a : Byte) : xtime a = (a <<< 1) ^^^ (if a.msb then 0x1B else 0x00) := by
  simp [xtime, BitVec.msb_eq_decide]

/-- Doubling is additive: the sum of the field is xor (R145). -/
theorem xtime_xor (a b : Byte) : xtime (a ^^^ b) = xtime a ^^^ xtime b := by
  have reduction : (if (a ^^^ b).msb then (0x1B : Byte) else 0x00) =
      (if a.msb then 0x1B else 0x00) ^^^ (if b.msb then 0x1B else 0x00) := by
    rw [BitVec.msb_xor]
    cases a.msb <;> cases b.msb <;> rfl
  rw [xtime_eq_msb, xtime_eq_msb, xtime_eq_msb, reduction, BitVec.shiftLeft_xor_distrib]
  ac_rfl

theorem xtime_zero : xtime 0 = 0 := rfl

/-- The product is additive in its left factor (R145). -/
theorem gfMulBits_xor_left (n : Nat) (a a' b : Byte) :
    gfMulBits n (a ^^^ a') b = gfMulBits n a b ^^^ gfMulBits n a' b := by
  induction n generalizing a a' b with
  | zero => exact BitVec.xor_self.symm
  | succ n ih =>
    have bit : (if b.toNat % 2 = 1 then a ^^^ a' else 0) =
        (if b.toNat % 2 = 1 then a else 0) ^^^ (if b.toNat % 2 = 1 then a' else 0) := by
      split <;> simp
    rw [gfMulBits, gfMulBits, gfMulBits, bit, xtime_xor, ih]
    ac_rfl

/-- Doubling the left factor doubles the product (R145). -/
theorem gfMulBits_xtime_left (n : Nat) (a b : Byte) : gfMulBits n (xtime a) b = xtime (gfMulBits n a b) := by
  induction n generalizing a b with
  | zero => simp only [gfMulBits, xtime_zero]
  | succ n ih =>
    have bit : (if b.toNat % 2 = 1 then xtime a else 0) = xtime (if b.toNat % 2 = 1 then a else 0) := by
      split
      · rfl
      · exact xtime_zero.symm
    rw [gfMulBits, gfMulBits, bit, ih, ← xtime_xor]

theorem gfMul_one_left : ∀ b : Byte, gfMul 0x01 b = b := by decide +kernel

/-- `0x02` is the double of `0x01` (R145, R149). -/
theorem gfMul_two_left (b : Byte) : gfMul 0x02 b = xtime b :=
  (gfMulBits_xtime_left 8 0x01 b).trans (congrArg xtime (gfMul_one_left b))

/-- `0x03` is the sum of `0x02` and `0x01` (R149). -/
theorem gfMul_three_left (b : Byte) : gfMul 0x03 b = times3 b := by
  have sum : gfMul 0x03 b = gfMul 0x02 b ^^^ gfMul 0x01 b := gfMulBits_xor_left 8 0x02 0x01 b
  rw [sum, gfMul_two_left, gfMul_one_left, times3]

/-! ### The S-box -/

/-- The table of R147 is the function of R146, entry by entry. -/
theorem sbox_eq_affine_gfInv : ∀ a : Byte, sbox a = affine (gfInv a) := by decide +kernel

/-- The affine map back: the inverse of the matrix of R146, after taking off the constant. -/
def unaffine (b : Byte) : Byte :=
  (b ^^^ 0x63).rotateLeft 1 ^^^ (b ^^^ 0x63).rotateLeft 3 ^^^ (b ^^^ 0x63).rotateLeft 6

theorem unaffine_affine : ∀ b : Byte, unaffine (affine b) = b := by decide +kernel

/-- The inverse read off the S-box, without the seven squarings of `a^254`. -/
theorem gfInv_eq_unaffine_sbox (a : Byte) : gfInv a = unaffine (sbox a) := by
  rw [sbox_eq_affine_gfInv, unaffine_affine]

/-- The power `a^254` is the inverse in the field of 256 elements (R145). -/
theorem gfMul_gfInv : ∀ a : Byte, a ≠ 0 → gfMul a (gfInv a) = 0x01 := by
  simp only [gfInv_eq_unaffine_sbox]
  decide +kernel

theorem gfInv_gfInv : ∀ a : Byte, gfInv (gfInv a) = a := by
  simp only [gfInv_eq_unaffine_sbox]
  decide +kernel

/-- Settles O31: the table agrees with the function at each of its 256 entries, and the inverse is one at each byte but
zero. -/
theorem sboxIsAffineOfInverse : Obligations.SboxIsAffineOfInverse := ⟨sbox_eq_affine_gfInv, by decide, gfMul_gfInv⟩

/-- The S-box is one to one, as its two parts are (R146). -/
theorem sbox_injective : Function.Injective sbox := by
  rw [show sbox = affine ∘ gfInv from funext sbox_eq_affine_gfInv]
  exact (Function.LeftInverse.injective unaffine_affine).comp (Function.LeftInverse.injective gfInv_gfInv)

/-! ### The round functions, byte by byte -/

/-- Two states are equal where their rows and columns are (R143). -/
theorem at4_ext {s t : B 16} (h : ∀ r c, r < 4 → c < 4 → at4 s r c = at4 t r c) : s = t :=
  block_ext fun i hi => by
    have place := h (i % 4) (i / 4) (by omega) (by omega)
    rwa [at4, at4, Nat.mod_add_div] at place

/-- ShiftRows reads row `r` at column `(c + r) mod 4` (R148). -/
theorem at4_shiftRows (s : B 16) {r c : Nat} (hr : r < 4) (hc : c < 4) :
    at4 (shiftRows s) r c = at4 s r ((c + r) % 4) := by
  have inside : r + 4 * c < 16 := by omega
  have row : (r + 4 * c) % 4 = r := by omega
  have column : (r + 4 * c) / 4 = c := by omega
  rw [at4, shiftRows, toList_ofList, List.getD_eq_getElem?_getD, List.getElem?_map, List.getElem?_range inside,
    Option.map_some, Option.getD_some, row, column]

/-- MixColumns replaces column `c` by the mixed column (R149). -/
theorem at4_mixColumns (s : B 16) {r c : Nat} (hr : r < 4) (hc : c < 4) :
    at4 (mixColumns s) r c = (mixColumn (at4 s 0 c) (at4 s 1 c) (at4 s 2 c) (at4 s 3 c)).getD r 0 := by
  interval_cases c <;> interval_cases r <;> rfl

/-- Settles O32: the model's columns are written with `xtime` and `times3`, which are the products by 02 and 03. -/
theorem shiftRowsAndMixColumnsByTheirFormulas : Obligations.ShiftRowsAndMixColumnsByTheirFormulas := by
  refine ⟨fun s r c => at4_shiftRows s, fun s c hc => ?_⟩
  simp only [gfMul_two_left, gfMul_three_left]
  exact ⟨at4_mixColumns s (by decide) hc, at4_mixColumns s (by decide) hc, at4_mixColumns s (by decide) hc,
    at4_mixColumns s (by decide) hc⟩

/-! ### The round functions are one to one -/

theorem addRoundKey_injective (ws : List (B 4)) (r : Nat) : Function.Injective (addRoundKey ws r) :=
  Function.LeftInverse.injective (g := addRoundKey ws r) fun s => bxor_cancel s (roundKey ws r)

theorem subBytes_injective : Function.Injective subBytes := fun _ _ h =>
  Vector.toList_inj.mp (sbox_injective.list_map (congrArg Vector.toList h))

/-- Each byte of the state stands somewhere in the state with its rows shifted (R148). -/
theorem at4_of_shiftRows (s : B 16) {r c : Nat} (hr : r < 4) (hc : c < 4) :
    at4 s r c = at4 (shiftRows s) r ((c + 4 - r) % 4) := by
  rw [at4_shiftRows s hr (by omega)]
  congr 1
  omega

theorem shiftRows_injective : Function.Injective shiftRows := fun s t h =>
  at4_ext fun r c hr hc => by rw [at4_of_shiftRows s hr hc, at4_of_shiftRows t hr hc, h]

theorem byte_xor_left_comm (a b c : Byte) : a ^^^ (b ^^^ c) = b ^^^ (a ^^^ c) := by ac_rfl

/-- The sum of the four bytes of a column. -/
def columnSum (s : B 16) (c : Nat) : Byte := at4 s 0 c ^^^ at4 s 1 c ^^^ at4 s 2 c ^^^ at4 s 3 c

/-- MixColumns in one form for all rows: to each byte it adds the double of its sum with the byte below, and the sum of
the column (R149). -/
theorem at4_mixColumns_eq_sum (s : B 16) {r c : Nat} (hr : r < 4) (hc : c < 4) :
    at4 (mixColumns s) r c = at4 s r c ^^^ xtime (at4 s r c ^^^ at4 s ((r + 1) % 4) c) ^^^ columnSum s c := by
  rw [at4_mixColumns s hr hc, columnSum, xtime_xor]
  interval_cases r
  all_goals
    simp only [mixColumn, times3, List.getD_cons_zero, List.getD_cons_succ, Nat.reduceAdd, Nat.reduceMod]
    simp only [BitVec.xor_comm, byte_xor_left_comm, BitVec.xor_assoc, xor_cancel_left]

/-- MixColumns keeps the sum of a column: the doubles and the four copies of the sum cancel. -/
theorem columnSum_mixColumns (s : B 16) {c : Nat} (hc : c < 4) : columnSum (mixColumns s) c = columnSum s c := by
  have mixed := fun r (hr : r < 4) => at4_mixColumns_eq_sum s hr hc
  rw [columnSum, mixed 0 (by decide), mixed 1 (by decide), mixed 2 (by decide), mixed 3 (by decide)]
  generalize hsum : columnSum s c = sum
  simp only [xtime_xor, BitVec.xor_comm, byte_xor_left_comm, BitVec.xor_assoc, xor_cancel_left, BitVec.xor_self,
    Nat.reduceAdd, Nat.reduceMod]
  rw [← hsum, columnSum, BitVec.xor_assoc, BitVec.xor_assoc]

/-- Mixing twice adds to each byte four times its sum with the opposite byte of its column. -/
theorem at4_mixColumns_mixColumns (s : B 16) {r c : Nat} (hr : r < 4) (hc : c < 4) :
    at4 (mixColumns (mixColumns s)) r c = at4 s r c ^^^ xtime (xtime (at4 s r c ^^^ at4 s ((r + 2) % 4) c)) := by
  have below : (r + 1) % 4 < 4 := Nat.mod_lt _ (by decide)
  have opposite : ((r + 1) % 4 + 1) % 4 = (r + 2) % 4 := by omega
  rw [at4_mixColumns_eq_sum _ hr hc, at4_mixColumns_eq_sum s hr hc, at4_mixColumns_eq_sum s below hc,
    columnSum_mixColumns s hc, opposite]
  simp only [xtime_xor, BitVec.xor_comm, byte_xor_left_comm, BitVec.xor_assoc, xor_cancel_left]

/-- Mixing twice keeps the sum of opposite bytes, so mixing twice more adds the same again and undoes it. -/
theorem mixColumns_mixColumns_involutive : Function.Involutive (mixColumns ∘ mixColumns) := fun s =>
  at4_ext fun r c hr hc => by
    have across : (r + 2) % 4 < 4 := Nat.mod_lt _ (by decide)
    have back : ((r + 2) % 4 + 2) % 4 = r := by omega
    simp only [Function.comp_apply, at4_mixColumns_mixColumns _ hr hc, at4_mixColumns_mixColumns _ across hc, back]
    simp only [xtime_xor, BitVec.xor_comm, byte_xor_left_comm, BitVec.xor_assoc, xor_cancel_left, BitVec.xor_self]

theorem mixColumns_injective : Function.Injective mixColumns :=
  mixColumns_mixColumns_involutive.injective.of_comp

theorem aesRounds_injective (ws : List (B 4)) (n r : Nat) : Function.Injective (aesRounds ws n r) := by
  induction n generalizing r with
  | zero => exact fun _ _ h => h
  | succ n ih =>
    exact (ih (r + 1)).comp ((addRoundKey_injective ws r).comp
      (mixColumns_injective.comp (shiftRows_injective.comp subBytes_injective)))

/-- Settles O34: the cipher is a composition of round functions, each of them one to one. -/
theorem encryptionIsInjective : Obligations.EncryptionIsInjective := fun k _ _ h =>
  addRoundKey_injective _ 0 (aesRounds_injective (keyExpansion k) 9 1
    (subBytes_injective (shiftRows_injective (addRoundKey_injective _ 10 h))))

/-! ### The key expansion -/

/-- The expansion appends the number of words asked for (R150). -/
theorem length_expandFrom (n i : Nat) (ws : List (B 4)) : (expandFrom n i ws).length = ws.length + n := by
  induction n generalizing i ws with
  | zero => rfl
  | succ n ih =>
    rw [expandFrom, ih, List.length_append, List.length_singleton]
    omega

/-- The expansion only appends: the words before it stay (R150). -/
theorem words_prefix_expandFrom (n i : Nat) (ws : List (B 4)) : ws <+: expandFrom n i ws := by
  induction n generalizing i ws with
  | zero => exact List.prefix_rfl
  | succ n ih => exact (List.prefix_append ws _).trans (ih _ _)

/-- A word of the expansion reads two earlier words only (R150). -/
theorem nextWord_of_getElem? {ws : List (B 4)} {i : Nat} {u v : B 4} (hu : ws[i - 4]? = some u)
    (hv : ws[i - 1]? = some v) :
    nextWord ws i = bxor u (if i % 4 = 0 then addRcon (i / 4) (subWord (rotWord v)) else v) := by
  simp only [nextWord, List.getD_eq_getElem?_getD, hu, hv, Option.getD_some]

/-- Each appended word is the next word after the words before it (R150). -/
theorem getElem?_expandFrom {n i j : Nat} {ws : List (B 4)} (hi : ws.length = i) (hij : i ≤ j) (hj : j < i + n) :
    (expandFrom n i ws)[j]? = some (nextWord ((expandFrom n i ws).take j) j) := by
  induction n generalizing i ws with
  | zero => omega
  | succ n ih =>
    rw [expandFrom]
    obtain rfl | later := Nat.eq_or_lt_of_le hij
    · obtain ⟨rest, hrest⟩ := words_prefix_expandFrom n (i + 1) (ws ++ [nextWord ws i])
      subst hi
      rw [← hrest]
      simp
    · exact ih (by simp [hi]) later (by omega)

/-- Settles O33: the expansion is the four words of the key and forty more, each read from the words before it. -/
theorem keyExpansionRecurrence : Obligations.KeyExpansionRecurrence := by
  intro k
  refine ⟨length_expandFrom _ _ _, fun i hi => ?_, fun i u v h4 h44 hu hv => ?_⟩
  · obtain ⟨rest, hrest⟩ := words_prefix_expandFrom 40 4
      [slice k.toList 0 4, slice k.toList 4 4, slice k.toList 8 4, slice k.toList 12 4]
    rw [keyExpansion, ← hrest]
    interval_cases i <;> rfl
  · have before : ∀ j < i, ((keyExpansion k).take i)[j]? = (keyExpansion k)[j]? := fun j hj =>
      List.getElem?_take_of_lt hj
    have word : (keyExpansion k)[i]? = some (nextWord ((keyExpansion k).take i) i) :=
      getElem?_expandFrom rfl h4 h44
    rw [word, nextWord_of_getElem? ((before _ (by omega)).trans hu) ((before _ (by omega)).trans hv)]

end Sys2Proof.Machine
end

section
/-! SUPPORT. The GSM unit (`41_comp128.md`): the response of GSM_AUTH (R170), and of the published structure over any
tables the range of its array after a compression (R177) and what its output bytes pack (R178). -/

namespace Sys2Proof.Machine

/-! ### GSM_AUTH -/

/-- Settles O35: the width check comes first and asks for no cipher, and operands of the right width are read byte for
byte. -/
theorem gsmAuthResult : Obligations.GsmAuthResult := by
  intro ki rand k r s
  have widths : ¬ (k.toList.length ≠ 16 ∨ r.toList.length ≠ 16) := by simp
  refine ⟨fun wrong => ?_, ?_⟩
  · simp only [exec, execGsmAuth, if_pos wrong]
    rfl
  · simp only [exec, execGsmAuth, if_neg widths, fixed_toList, List.take_append_drop]
    rfl

/-! ### The compression -/

/-- A write below a bound leaves an entry below it that was below it, or that is the one written. -/
theorem getD_set_lt {x : List Nat} {m i v b : Nat} (hv : v < b) (h : i = m ∨ x.getD i 0 < b) :
    (x.set m v).getD i 0 < b := by
  obtain rfl | other := eq_or_ne m i
  · rw [List.getD_eq_getElem?_getD, List.getElem?_set_self']
    cases x[m]? with
    | none => exact Nat.zero_lt_of_lt hv
    | some _ => exact hv
  · rw [List.getD_eq_getElem?_getD, List.getElem?_set_ne other, ← List.getD_eq_getElem?_getD]
    exact h.resolve_left other.symm

/-- A step of level `j` writes values of table `Tj`, which are below `2^(8-j)`, to the two entries of its pair, and
leaves the others (R177). -/
theorem getD_butterfly_lt (tables : Config.Tables) (j : Nat) {x : List Nat} {mn : Nat × Nat} {i : Nat}
    (h : (i = mn.1 ∨ i = mn.2) ∨ x.getD i 0 < 2 ^ (8 - j)) :
    (butterfly tables j x mn).getD i 0 < 2 ^ (8 - j) := by
  have tableRange (y : BitVec (9 - j)) : (tables j y).toNat < 2 ^ (8 - j) := (tables j y).isLt
  apply getD_set_lt (tableRange _)
  obtain (first | second) | below := h
  · exact .inr (getD_set_lt (tableRange _) (.inl first))
  · exact .inl second
  · exact .inr (getD_set_lt (tableRange _) (.inr below))

/-- After any steps of level `j` an entry is below `2^(8-j)` that was so before or is in one of their pairs (R177). -/
theorem getD_foldl_butterfly_lt (tables : Config.Tables) (j : Nat) {pairs : List (Nat × Nat)} {x : List Nat} {i : Nat}
    (h : (∃ mn ∈ pairs, i = mn.1 ∨ i = mn.2) ∨ x.getD i 0 < 2 ^ (8 - j)) :
    (pairs.foldl (butterfly tables j) x).getD i 0 < 2 ^ (8 - j) := by
  induction pairs generalizing x with
  | nil => simpa using h
  | cons mn pairs ih =>
    obtain ⟨p, hp, hi⟩ | below := h
    · obtain rfl | later := List.mem_cons.mp hp
      · exact ih (.inr (getD_butterfly_lt tables j (.inl hi)))
      · exact ih (.inl ⟨p, later, hi⟩)
    · exact ih (.inr (getD_butterfly_lt tables j (.inr below)))

/-- Each level pairs up all 32 entries (R177). -/
theorem levelPairs_cover : ∀ j < 5, ∀ i < 32, ∃ mn ∈ levelPairs j, i = mn.1 ∨ i = mn.2 := by decide

/-- After level `j` every entry is a value of table `Tj` (R177). -/
theorem getD_compressLevel_lt (tables : Config.Tables) (x : List Nat) {j i : Nat} (hj : j < 5) (hi : i < 32) :
    (compressLevel tables x j).getD i 0 < 2 ^ (8 - j) :=
  getD_foldl_butterfly_lt tables j (.inl (levelPairs_cover j hj i hi))

/-- The last level leaves every entry below 16 (R177). -/
theorem getD_compress_lt (tables : Config.Tables) (x : List Nat) {i : Nat} (hi : i < 32) :
    (compress tables x).getD i 0 < 16 := by
  rw [compress, List.range_succ, List.foldl_concat]
  exact getD_compressLevel_lt tables _ (by decide) hi

theorem length_butterfly (tables : Config.Tables) (j : Nat) (x : List Nat) (mn : Nat × Nat) :
    (butterfly tables j x mn).length = x.length := by
  rw [butterfly, List.length_set, List.length_set]

/-- Steps that each keep the length of the array keep it together. -/
theorem length_foldl_of_step {α : Type} {step : List Nat → α → List Nat}
    (keeps : ∀ x a, (step x a).length = x.length) (steps : List α) (x : List Nat) :
    (steps.foldl step x).length = x.length := by
  induction steps generalizing x with
  | nil => rfl
  | cons a steps ih => rw [List.foldl_cons, ih, keeps]

theorem length_compressLevel (tables : Config.Tables) (x : List Nat) (j : Nat) :
    (compressLevel tables x j).length = x.length :=
  length_foldl_of_step (length_butterfly tables j) _ _

theorem length_compress (tables : Config.Tables) (x : List Nat) : (compress tables x).length = x.length :=
  length_foldl_of_step (length_compressLevel tables) _ _

/-- Settles O36: the steps keep the length, and the last level writes every entry from table `T4`. -/
theorem compressionEndsBelowSixteen : Obligations.CompressionEndsBelowSixteen := by
  intro tables x hx
  have width : (compress tables x).length = 32 := by rw [length_compress, hx]
  refine ⟨width, fun v hv => ?_⟩
  obtain ⟨i, hi, rfl⟩ := List.mem_iff_getElem.mp hv
  rw [← List.getD_eq_getElem _ 0 hi]
  exact getD_compress_lt tables x (width ▸ hi)

/-! ### The output bytes -/

/-- The array the output is read from has just been compressed (R176, R177). -/
theorem getD_comp128Array_lt (tables : Config.Tables) (ki rand : B 16) {i : Nat} (hi : i < 32) :
    (comp128Array tables ki rand).getD i 0 < 16 := by
  rw [comp128Array, comp128Pass]
  exact getD_compress_lt tables _ hi

/-- The output byte by byte (R178). -/
theorem getD_comp128 (tables : Config.Tables) (ki rand : B 16) {i : Nat} (hi : i < 12) :
    (comp128 tables ki rand).toList.getD i 0 = comp128Byte (comp128Array tables ki rand) i := by
  rw [comp128, toList_ofList, List.getD_eq_getElem?_getD, List.getElem?_map, List.getElem?_range hi, Option.map_some,
    Option.getD_some]

/-- Byte 10 is made of values shifted left by two places or more (R173, R178). -/
theorem comp128Byte_ten_and_three (x : List Nat) : comp128Byte x 10 &&& 0x03 = 0x00 := by
  change BitVec.ofNat 8 (x.getD 30 0 <<< 6 ||| x.getD 31 0 <<< 2) &&& 0x03 = 0x00
  generalize x.getD 30 0 = u
  generalize x.getD 31 0 = v
  apply BitVec.eq_of_toNat_eq
  have lowBits : (u <<< 6 ||| v <<< 2) % 2 ^ 2 = 0 := by
    have high : u * 2 ^ 6 % 2 ^ 2 = 0 := by omega
    rw [Nat.or_mod_two_pow, Nat.shiftLeft_eq, Nat.shiftLeft_eq, high, Nat.mul_mod_left, Nat.or_self]
  calc (u <<< 6 ||| v <<< 2) % 2 ^ 8 &&& (2 ^ 2 - 1)
    _ = (u <<< 6 ||| v <<< 2) % 2 ^ 8 % 2 ^ 2 := Nat.and_two_pow_sub_one_eq_mod _ 2
    _ = (u <<< 6 ||| v <<< 2) % 2 ^ 2 := Nat.mod_mod_of_dvd _ (by decide)
    _ = 0 := lowBits

/-- Two entries below 16 fill a byte of SRES (R178). -/
theorem toNat_comp128Byte_of_lt_four {x : List Nat} {i : Nat} (hi : i < 4) (high : x.getD (2 * i) 0 < 16)
    (low : x.getD (2 * i + 1) 0 < 16) :
    (comp128Byte x i).toNat = 16 * x.getD (2 * i) 0 + x.getD (2 * i + 1) 0 := by
  have packed : x.getD (2 * i) 0 <<< 4 ||| x.getD (2 * i + 1) 0 = 16 * x.getD (2 * i) 0 + x.getD (2 * i + 1) 0 := by
    rw [← Nat.shiftLeft_add_eq_or_of_lt low, Nat.shiftLeft_eq, Nat.mul_comm]
  rw [comp128Byte, if_pos hi, packed, BitVec.toNat_ofNat]
  omega

/-- Settles O37: the last ten bits are zero by how the bytes are formed, whatever the array; that the nibbles of SRES do
not overlap is the range of the compressed array. -/
theorem publishedKcEndsInTenZeroBits : Obligations.PublishedKcEndsInTenZeroBits := by
  intro tables ki rand
  refine ⟨?_, ?_, fun i hi => ?_⟩
  · rw [getD_comp128 tables ki rand (by decide)]
    rfl
  · rw [getD_comp128 tables ki rand (by decide), comp128Byte_ten_and_three]
  · rw [getD_comp128 tables ki rand (by omega), toNat_comp128Byte_of_lt_four hi
      (getD_comp128Array_lt tables ki rand (by omega)) (getD_comp128Array_lt tables ki rand (by omega))]

end Sys2Proof.Machine
end

section
/-! SUPPORT. The outcome of Milenage on any operands, and on an AUTN given by its three fields `SQN field ‖ AMF ‖ MAC`
(R60): what a matching and a corrupted challenge get (R197 to R200, R207). -/

namespace Sys2Proof.Machine

/-! ### The outcome of Milenage -/

/-- Settles O38: both sides have the same bytes. -/
theorem placeIsRotation : Obligations.PlaceIsRotation := fun x _ hk => place_eq_rot x hk

/-- With a cipher the outcome is the authentication by f1 to f5*, whatever working values come with it (R191, R201). -/
theorem milenage_true_outcome (ki opc : B 16) (sqn : B 6) (rand autn : B 16) :
    (milenage true ki opc sqn rand autn).map Prod.snd = some (tsAuthenticate ki opc sqn rand autn) := by
  obtain ⟨w, hw⟩ := milenage_true ki opc sqn rand autn
  rw [hw, Option.map_some]

/-- Settles O39: each block of the run is the one TS 35.206 names, and so is the decision over them. -/
theorem milenageIsTs35206 : Obligations.MilenageIsTs35206 := fun ki opc sqn rand autn =>
  ⟨milenage_true_outcome ki opc sqn rand autn, milenage_false ki opc sqn rand autn⟩

/-! ### An AUTN by its fields -/

/-- The first six bytes of an AUTN are its SQN field (R60). -/
theorem slice_autn_sqn (q : B 6) (amf : B 2) (mac : B 8) : slice (bcat (bcat q amf) mac).toList 0 6 = q := by
  rw [toList_bcat, toList_bcat, List.append_assoc]
  exact slice_append [] (amf.toList ++ mac.toList) q rfl

/-- The two bytes after the SQN field are the AMF (R60). -/
theorem slice_autn_amf (q : B 6) (amf : B 2) (mac : B 8) : slice (bcat (bcat q amf) mac).toList 6 2 = amf := by
  rw [toList_bcat, toList_bcat, List.append_assoc]
  exact slice_append q.toList mac.toList amf (length_toList q)

/-- The last eight bytes of an AUTN are its MAC field (R60). -/
theorem slice_autn_mac (q : B 6) (amf : B 2) (mac : B 8) : slice (bcat (bcat q amf) mac).toList 8 8 = mac := by
  rw [toList_bcat, ← List.append_nil mac.toList]
  exact slice_append (off := 8) (bcat q amf).toList [] mac (length_toList (bcat q amf))

/-- The SQN an AUTN carries is its SQN field without the AK (R195). -/
theorem tsSqn_autn (k opc rand : B 16) (q : B 6) (amf : B 2) (mac : B 8) :
    tsSqn k opc rand (bcat (bcat q amf) mac) = bxor q (tsF5 k opc rand) := by
  rw [tsSqn, slice_autn_sqn]

/-- Xoring moves from one side of an equation to the other: an SQN field gives the stored SQN exactly when it is that
SQN under the AK (R11, R195). -/
theorem bxor_eq_iff {n : Nat} (q a s : B n) : bxor q a = s ↔ q = bxor s a :=
  ⟨fun h => h ▸ (bxor_cancel q a).symm, fun h => h ▸ bxor_cancel s a⟩

/-! ### The decision of R197 -/

/-- An SQN field other than the stored SQN under the AK asks for re-synchronisation; the AMF and the MAC are not looked
at (R197, R198). -/
theorem tsAuthenticate_of_wrong_sqn {k opc rand : B 16} {sqn q : B 6} (amf : B 2) (mac : B 8)
    (wrong : q ≠ bxor sqn (tsF5 k opc rand)) :
    tsAuthenticate k opc sqn rand (bcat (bcat q amf) mac) = .syncFailure (tsAuts k opc rand sqn) := by
  have differs : tsSqn k opc rand (bcat (bcat q amf) mac) ≠ sqn := by
    rwa [tsSqn_autn, Ne, bxor_eq_iff]
  exact if_pos differs

/-- With the stored SQN under the AK in its SQN field, an AUTN is accepted or not by its MAC field alone, against the
MAC-A over the AMF received (R197, R199, R200). -/
theorem tsAuthenticate_of_right_sqn (k opc rand : B 16) (sqn : B 6) (amf : B 2) (mac : B 8) :
    tsAuthenticate k opc sqn rand (bcat (bcat (bxor sqn (tsF5 k opc rand)) amf) mac) =
      if tsF1 k opc rand sqn amf ≠ mac then .invalidMac
      else .ok (tsF2 k opc rand) (tsF3 k opc rand) (tsF4 k opc rand) := by
  have carried : tsSqn k opc rand (bcat (bcat (bxor sqn (tsF5 k opc rand)) amf) mac) = sqn := by
    rw [tsSqn_autn, bxor_cancel]
  simp only [tsAuthenticate, carried, slice_autn_amf, slice_autn_mac, ne_eq, not_true_eq_false, if_false]

/-- Settles O41: such an AUTN carries the stored SQN and the MAC-A over its own AMF. -/
theorem matchingChallengeIsAccepted : Obligations.MatchingChallengeIsAccepted := by
  intro ki opc sqn amf rand
  rw [milenage_true_outcome, tsAutn, tsAuthenticate_of_right_sqn, if_neg (not_not_intro rfl)]

/-- Settles O42: the SQN is decided first, and the MAC under the right SQN only. -/
theorem corruptedChallengeOutcome : Obligations.CorruptedChallengeOutcome := by
  intro ki opc sqn q amf mac rand
  refine ⟨fun wrongSqn => ?_, fun rightSqn wrongMac => ?_⟩
  · rw [milenage_true_outcome, tsAuthenticate_of_wrong_sqn amf mac wrongSqn]
  · rw [milenage_true_outcome, rightSqn, tsAuthenticate_of_right_sqn, if_pos wrongMac.symm]

end Sys2Proof.Machine
end

section
/-! SUPPORT. The classifier rule by rule (R231 to R236) and the answers of CLASSIFY (R230); what a command answers whose
session is not open (R246 b, R390), and the router's two refusals of an APDU on an open session (R241, R242). -/

namespace Sys2Proof.Machine

/-! ### The classifier -/

/-- The GSM context is admitted exactly on USIM and ISIM (R234). -/
theorem AppType.admitsGsm_iff {t : AppType} : t.admitsGsm = true ↔ t = .usim ∨ t = .isim := by
  cases t <;> simp [AppType.admitsGsm]

/-- The GSM context is admitted on every type but OTHER (R234). -/
theorem AppType.admitsGsm_of_ne_other {t : AppType} (h : t ≠ .other) : t.admitsGsm = true := by
  cases t with
  | other => exact absurd rfl h
  | usim => rfl
  | isim => rfl

/-- The UMTS context is admitted exactly on ISIM (R235). -/
theorem AppType.admitsUmts_iff {t : AppType} : t.admitsUmts = true ↔ t = .isim := by
  cases t <;> simp [AppType.admitsUmts]

/-- R231 decides before every other rule. -/
theorem classifyFn_of_cla {cla : Byte} (h : cla ≠ 0x00) (ins p1 p2 lc : Byte) (t : AppType) :
    classifyFn cla ins p1 p2 lc t = .statusError .unsupportedClass := if_pos h

/-- R232 decides next. -/
theorem classifyFn_of_ins {ins : Byte} (h : ins ≠ 0x88) (p1 p2 lc : Byte) (t : AppType) :
    classifyFn 0x00 ins p1 p2 lc t = .statusError .unsupportedInstruction := if_pos h

/-- R233 decides next. -/
theorem classifyFn_of_p1 {p1 : Byte} (h : p1 ≠ 0x00) (p2 lc : Byte) (t : AppType) :
    classifyFn 0x00 0x88 p1 p2 lc t = .statusError .incorrectParameters := if_pos h

/-- R234: the GSM context, the length before the type. -/
theorem classifyFn_gsm (lc : Byte) (t : AppType) :
    classifyFn 0x00 0x88 0x00 0x80 lc t =
      if lc ≠ 0x11 then .statusError .wrongLength
      else if t.admitsGsm then .gsmAuth else .statusError .applicationError := rfl

/-- R235: the UMTS context, the length before the type. -/
theorem classifyFn_umts (lc : Byte) (t : AppType) :
    classifyFn 0x00 0x88 0x00 0x81 lc t =
      if lc ≠ 0x22 then .statusError .wrongLength
      else if t.admitsUmts then .umtsAuth else .statusError .applicationError := rfl

/-- R236: any other P2 is unknown, whatever the length and the type. -/
theorem classifyFn_of_p2 {p2 : Byte} (notGsm : p2 ≠ 0x80) (notUmts : p2 ≠ 0x81) (lc : Byte) (t : AppType) :
    classifyFn 0x00 0x88 0x00 p2 lc t = .statusError .unknown :=
  (if_neg notGsm).trans (if_neg notUmts)

/-- Settles O43: one lemma per rule, each for the headers that the rules before it pass on. -/
theorem classifierAppliesItsRulesInOrder : Obligations.ClassifierAppliesItsRulesInOrder := by
  intro cla ins p1 p2 lc t
  refine ⟨fun h => classifyFn_of_cla h .., fun h => classifyFn_of_ins h .., fun h => classifyFn_of_p1 h .., fun h => ?_,
    ?_, fun h => ?_, ?_, fun notGsm notUmts => classifyFn_of_p2 notGsm notUmts .., rfl⟩
  · rw [classifyFn_gsm, if_pos h]
  · simp only [classifyFn_gsm, ne_eq, not_true_eq_false, if_false, AppType.admitsGsm_iff]
  · rw [classifyFn_umts, if_pos h]
  · simp only [classifyFn_umts, ne_eq, not_true_eq_false, if_false, AppType.admitsUmts_iff]

/-! ### CLASSIFY -/

/-- The code of an application type names that type (R27). -/
@[simp] theorem AppType.ofCode_code (t : AppType) : AppType.ofCode t.code = some t := by
  cases t <;> rfl

/-- A code above two names no application type (R27). -/
theorem AppType.ofCode_of_two_lt {c : Byte} (h : 0x02 < c.toNat) : AppType.ofCode c = none := by
  unfold AppType.ofCode
  split
  case h_4 => rfl
  all_goals omega

/-- A header that is not five bytes is refused, whatever the type code (R230). -/
theorem exec_classify_of_wrong_length {hdr : Bytes} (h : hdr.length ≠ 5) (apptype : Byte) (s : State) :
    exec (.classify hdr apptype) s = .next (s.raise .invalidLength) := by
  simp only [exec, execClassify]
  split
  · exact absurd rfl h
  · rfl

/-- A header of five bytes with a code that names no type is refused (R230). -/
theorem exec_classify_of_undefined_type (cla ins p1 p2 lc : Byte) {apptype : Byte}
    (h : AppType.ofCode apptype = none) (s : State) :
    exec (.classify [cla, ins, p1, p2, lc] apptype) s = .next (s.raise .frame) := by
  simp only [exec, execClassify, h]

/-- A header of five bytes is classified for the type that the code names (R230). -/
theorem exec_classify_of_type (cla ins p1 p2 lc : Byte) (t : AppType) (s : State) :
    exec (.classify [cla, ins, p1, p2, lc] t.code) s = .next (s.respond (classifyFn cla ins p1 p2 lc t).payload) := by
  simp only [exec, execClassify, AppType.ofCode_code]

/-- Settles O44: the header's length decides first, then whether the code names a type. -/
theorem classifyResult : Obligations.ClassifyResult := by
  intro hdr cla ins p1 p2 lc apptype t s
  refine ⟨fun wrong => exec_classify_of_wrong_length wrong apptype s,
    fun undefined => exec_classify_of_undefined_type cla ins p1 p2 lc (AppType.ofCode_of_two_lt undefined) s, ?_⟩
  rw [exec_classify_of_type]
  cases classifyFn cla ins p1 p2 lc t <;> rfl

/-! ### Commands that need an open session -/

/-- The commands that look up a session of this id and do nothing without it (R246 b, R275, R314). -/
inductive NeedsSession (id : U16) : Instr → Prop where
  | lookup : NeedsSession id (.lookup id)
  | apduExec (apdu : Bytes) : NeedsSession id (.apduExec id apdu)
  | authenticateGsm (body : Bytes) : NeedsSession id (.authenticateGsm id body)
  | authenticateUmts (body : Bytes) : NeedsSession id (.authenticateUmts id body)
  | fileAccess (cmd : Bytes) : NeedsSession id (.fileAccess id cmd)

/-- A command whose session is not open raises `ERR_NOT_FOUND`, whatever its other operands (R246 b, R390). -/
theorem NeedsSession.exec_of_notMem {id : U16} {i : Instr} (hi : NeedsSession id i) {s : State}
    (h : id ∉ s.sess.inUse) : exec i s = .next (s.raise .notFound) := by
  have missing : s.sess.find id = none := find_eq_none.mpr h
  cases hi with
  | lookup => simp only [exec, execLookup, missing]
  | apduExec apdu => simp only [exec, execApduExec, missing]
  | authenticateGsm body => simp only [exec, execAuthenticateGsm, missing]
  | authenticateUmts body => simp only [exec, execAuthenticateUmts, missing]
  | fileAccess cmd => simp only [exec, execFileAccess, missing]

/-- The response to a command whose session is not open is `04` alone (R95, R246 b). -/
theorem NeedsSession.responseOf_of_notMem {id : U16} {i : Instr} (hi : NeedsSession id i) {s : State}
    (h : id ∉ s.sess.inUse) : responseOf i s = some [0x04] := by
  rw [responseOf, hi.exec_of_notMem h]
  rfl

/-- A closed id is not in use, where ids were distinct (R274). -/
theorem SessionTable.notMem_inUse_close {t : SessionTable} (id : U16) (distinct : t.inUse.Nodup) :
    id ∉ (t.close id).inUse := by
  simp [SessionTable.inUse, openSlots_close t id distinct]

/-- The state a close leaves: the table closed, and the answer `DONE` given (R274). -/
theorem stateAfter_closeChannel (id : U16) (s : State) :
    stateAfter (.closeChannel id) s = (s.closeSession id).respond [] := rfl

/-- Closing an id that is not in use only answers (R274). -/
theorem exec_closeChannel_of_notMem {id : U16} {s : State} (h : id ∉ s.sess.inUse) :
    exec (.closeChannel id) s = .next (s.respond []) := by
  have same : s.closeSession id = s := by rw [State.closeSession, close_of_not_inUse _ _ h]
  rw [exec, execCloseChannel, same]

/-- Settles O26: after the close the id is not in use, so the commands that need its session refuse, and a second
close only gives the answer that the first one left. -/
theorem closedSessionIsGone : Obligations.ClosedSessionIsGone := by
  intro id apdu body cmd s distinct
  have gone : id ∉ (stateAfter (.closeChannel id) s).sess.inUse := SessionTable.notMem_inUse_close id distinct
  refine ⟨NeedsSession.lookup.responseOf_of_notMem gone, (NeedsSession.apduExec apdu).responseOf_of_notMem gone,
    (NeedsSession.authenticateGsm body).responseOf_of_notMem gone,
    (NeedsSession.authenticateUmts body).responseOf_of_notMem gone,
    (NeedsSession.fileAccess cmd).responseOf_of_notMem gone, ?_⟩
  rw [exec_closeChannel_of_notMem gone, stateAfter_closeChannel]
  rfl

/-! ### APDU_EXEC on an open session -/

/-- On the session found, APDU_EXEC is the router for that session's type (R240). -/
theorem exec_apduExec_of_find {id : U16} {k : Slot} {s : State} (found : s.sess.find id = some k) (apdu : Bytes) :
    exec (.apduExec id apdu) s = .next (s.routeApdu k.type apdu) := by
  simp only [exec, execApduExec, found]

/-- A status word as a response: `DONE` with a card response of its two bytes, and nothing else but `WORK` written (R96,
R106). -/
theorem State.cardStatus_eq (sw : StatusWord) (s : State) :
    s.cardStatus sw = { s with work := .cleared, out := some ([0x00, 0x00, 0x02] ++ u16Bytes sw.value) } := by
  have card : lv2 sw.bytes = [0x00, 0x02] ++ u16Bytes sw.value := by
    rw [lv2, StatusWord.bytes, Laws.length_u16Bytes]
    rfl
  rw [State.cardStatus, State.cardRespond, card]
  rfl

/-- An APDU of fewer than five bytes gets `67 00` on every type (R242). -/
theorem routeApdu_of_short (t : AppType) {apdu : Bytes} (short : apdu.length < 5) (s : State) :
    s.routeApdu t apdu = s.cardStatus .wrongLength := by
  unfold State.routeApdu
  split
  · simp only [List.length_cons] at short
    omega
  · rfl

/-- The classifier's rejection is the router's, whatever the body (R242). -/
theorem routeApdu_of_statusError {cla ins p1 p2 lc : Byte} {t : AppType} {sw : StatusWord}
    (rejects : classifyFn cla ins p1 p2 lc t = .statusError sw) (body : Bytes) (s : State) :
    s.routeApdu t (cla :: ins :: p1 :: p2 :: lc :: body) = s.cardStatus sw := by
  simp only [State.routeApdu, rejects]

/-- Settles O45: the session is looked up first, and on its type the router asks for five bytes, then for the
classifier's consent. -/
theorem apduExecResult : Obligations.ApduExecResult := by
  intro id apdu body cla ins p1 p2 lc sw k s
  refine ⟨(NeedsSession.apduExec apdu).exec_of_notMem, fun used short => ?_, fun distinct hopen hid rejects => ?_⟩
  · obtain ⟨found, hfound⟩ : ∃ found, s.sess.find id = some found :=
      Option.ne_none_iff_exists'.mp fun missing => find_eq_none.mp missing used
    rw [exec_apduExec_of_find hfound, routeApdu_of_short _ short, State.cardStatus_eq]
    rfl
  · have found : s.sess.find id = some k := (find_eq_some_iff distinct).mpr ⟨hopen, hid⟩
    rw [exec_apduExec_of_find found, routeApdu_of_statusError rejects, State.cardStatus_eq]

/-! ### AUTHENTICATE bodies of a wrong form -/

/-- A body that is admitted has one of the two lengths, and its data are its own bytes up to `Lc` (R101, R241). -/
theorem apduData_eq_some {lc : Nat} {body data : Bytes} (h : apduData lc body = some data) :
    (body.length = lc ∨ body.length = lc + 1) ∧ ∀ i, i < lc → data.getD i 0 = body.getD i 0 := by
  obtain ⟨admitted, taken⟩ := Option.ite_none_right_eq_some.mp h
  obtain rfl : body.take lc = data := Option.some.inj taken
  refine ⟨admitted, fun i hi => ?_⟩
  rw [List.getD_eq_getElem?_getD, List.getElem?_take_of_lt hi, List.getD_eq_getElem?_getD]

/-- The GSM path refuses a body of a wrong length or with a wrong length byte (R241). -/
theorem gsmPath_of_wrongForm {body : Bytes}
    (wrong : body.length ≠ 17 ∧ body.length ≠ 18 ∨ body.getD 0 0 ≠ lengthByte) (s : State) :
    s.gsmPath body = s.cardStatus .wrongLength := by
  unfold State.gsmPath
  split
  · rfl
  · next data hdata =>
    obtain ⟨admitted, bytes⟩ := apduData_eq_some hdata
    have wrongByte : data.getD 0 0 ≠ lengthByte := by
      rw [bytes 0 (by decide)]
      exact wrong.resolve_left (by omega)
    rw [if_pos wrongByte]

/-- The UMTS path refuses a body of a wrong length or with a wrong length byte (R241). -/
theorem umtsPath_of_wrongForm {body : Bytes}
    (wrong : body.length ≠ 34 ∧ body.length ≠ 35 ∨ body.getD 0 0 ≠ lengthByte ∨ body.getD 17 0 ≠ lengthByte)
    (s : State) : s.umtsPath body = s.cardStatus .wrongLength := by
  unfold State.umtsPath
  split
  · rfl
  · next data hdata =>
    obtain ⟨admitted, bytes⟩ := apduData_eq_some hdata
    have wrongByte : data.getD 0 0 ≠ lengthByte ∨ data.getD 17 0 ≠ lengthByte := by
      rw [bytes 0 (by decide), bytes 17 (by decide)]
      exact wrong.resolve_left (by omega)
    rw [if_pos wrongByte]

/-- Settles O49: on an admitting session each command is its path, and the path refuses such a body. -/
theorem wrongBodiesGetWrongLength : Obligations.WrongBodiesGetWrongLength := by
  rintro _ body k s distinct hopen rfl
  refine ⟨fun type wrong => ?_, fun type wrong => ?_⟩
  · rw [exec_authenticateGsm_of_open distinct hopen (AppType.admitsGsm_of_ne_other type), gsmPath_of_wrongForm wrong,
      State.cardStatus_eq]
    rfl
  · rw [exec_authenticateUmts_of_open distinct hopen (AppType.admitsUmts_iff.mpr type), umtsPath_of_wrongForm wrong,
      State.cardStatus_eq]
    rfl

end Sys2Proof.Machine
end

section
/-! SUPPORT. The arbiter (`44_session.md` section 3): what a submission and an arbiter step do to the ports (R290, R291,
R391), and why a pending command is served within a bound, by a count of the services that can still come before it
(log entry 3). -/

namespace Sys2Proof.Machine

/-! ### Submissions -/

/-- R290: a submission on an idle port makes it pending, with the stamp drawn for it. -/
theorem State.submit_of_idle {s : State} {p : Nat} {old : Option Bytes} (h : s.ports[p]? = some ⟨.idle, old⟩)
    (frame : Bytes) :
    s.submit p frame = some { s with
      ports := s.ports.set p ⟨.pending frame (s.served + Config.patience s.stream s.submitted), none⟩
      submitted := s.submitted + 1 } := by
  simp only [State.submit, h]

/-- R391: a submission on a port that is not idle, or does not exist, is not accepted. -/
theorem State.submit_of_not_idle {s : State} {p : Nat} (h : ∀ old, s.ports[p]? ≠ some ⟨.idle, old⟩) (frame : Bytes) :
    s.submit p frame = none := by
  unfold State.submit
  split
  · next old hport => exact absurd hport (h old)
  · rfl

/-- Settles O11: the two cases of a submission; the stamp drawn is at least the service count. -/
theorem submissionNeedsAnIdlePort : Obligations.SubmissionNeedsAnIdlePort := fun _ _ frame =>
  ⟨fun _ idle => ⟨_, Nat.le_add_right _ _, State.submit_of_idle idle frame⟩,
    fun busy => State.submit_of_not_idle busy frame⟩

/-- What a submission event can do: nothing, or make an idle port pending with a stamp not below the service count
(R290, R391). -/
theorem State.after_submit_cases (s : State) (q : Nat) (f : Bytes) :
    s.after (.submit q f) = s ∨
      ∃ r d, s.ports[q]? = some ⟨.idle, r⟩ ∧ s.served ≤ d ∧ s.after (.submit q f) =
        { s with ports := s.ports.set q ⟨.pending f d, none⟩, submitted := s.submitted + 1 } := by
  by_cases idle : ∃ r, s.ports[q]? = some ⟨.idle, r⟩
  · obtain ⟨r, hq⟩ := idle
    obtain ⟨d, hd, accepted⟩ := (submissionNeedsAnIdlePort s q f).1 r hq
    exact .inr ⟨r, d, hq, hd, by rw [State.after, accepted, Option.getD_some]⟩
  · rw [not_exists] at idle
    exact .inl (by rw [State.after, State.submit_of_not_idle idle, Option.getD_none])

/-! ### The step -/

/-- A frame that decodes is its command (R91). -/
theorem runFrame_of_decode {frame : Bytes} {i : Instr} (h : decode frame = .ok i) (s : State) :
    runFrame frame s = exec i s := by
  simp only [runFrame, h]

/-- The step runs the frame chosen and delivers its response (R290). -/
theorem step_of_selected {s : State} {c : Selected} (h : selectPort 0 s.ports = some c) :
    step s = deliverOutcome c.port (runFrame c.frame s) := by
  simp only [step, serve, h]

/-- Settles O6: the frame chosen is its command, and delivery writes the port, `out` and the service count. -/
theorem stepRunsTheChosenCommand : Obligations.StepRunsTheChosenCommand := by
  intro s t c i chosen decoded run
  rw [step_of_selected chosen, runFrame_of_decode decoded, run]
  rfl

/-- What a frame leaves: a response frame in `out`, and the ports and the service count as they were (R95, R70). -/
theorem runFrame_out_ports (frame : Bytes) (s : State) :
    ∃ t response, runFrame frame s = .next t ∧ t.out = some response ∧ t.ports = s.ports ∧ t.served = s.served := by
  obtain ⟨t, run, ⟨i, -, effect⟩ | rfl⟩ := runFrame_next frame s
  · obtain ⟨r, hout⟩ := effect.out_eq
    obtain ⟨-, hports, hserved, -⟩ := effect.frame
    exact ⟨t, r.frame, run, hout, hports, hserved⟩
  · exact ⟨_, _, run, rfl, rfl, rfl⟩

/-- Settles O9: every frame leaves a response in `out` and the ports as they were, and delivery writes that response on
the command's port. -/
theorem everyServedCommandIsAnsweredOnce : Obligations.EveryServedCommandIsAnsweredOnce := by
  intro s c chosen
  obtain ⟨u, response, run, hout, hports, hserved⟩ := runFrame_out_ports c.frame s
  refine ⟨u.deliver c.port, response, by rw [step_of_selected chosen, run]; rfl, ?_, rfl, ?_⟩
  · rw [State.deliver_ports, hports, hout]
  · rw [State.deliver_served, hserved]

/-! ### The services before a pending command -/

/-- Setting one element changes a count by that element; a weaker predicate counts no less of the others. -/
theorem countP_set_add_le {α : Type} {f g : α → Bool} (weaker : ∀ x, g x = true → f x = true) {l : List α} {i : Nat}
    {x : α} (hx : l[i]? = some x) (a : α) :
    (l.set i a).countP g + (if f x then 1 else 0) ≤ l.countP f + (if g a then 1 else 0) := by
  induction l generalizing i with
  | nil => simp at hx
  | cons b l ih =>
    cases i with
    | zero =>
      obtain rfl : b = x := by simpa using hx
      have rest : l.countP g ≤ l.countP f := List.countP_mono_left fun y _ => weaker y
      simp only [List.set_cons_zero, List.countP_cons]
      omega
    | succ i =>
      have rest := ih (i := i) (by simpa using hx)
      have head : (if g b then 1 else 0) ≤ if f b then 1 else 0 := by
        by_cases hg : g b = true
        · simp [hg, weaker b hg]
        · simp [hg]
      simp only [List.set_cons_succ, List.countP_cons]
      omega

/-- The port has, or can still get, a command that is served no later than one stamped `due`: it has one if its stamp is
no greater, and it can get one as long as the service count is no greater, since a new stamp is at least that count. -/
def Port.canPrecede (served due : Nat) (q : Port) : Bool :=
  decide (served ≤ due) ||
    match q.status with
    | .idle => false
    | .pending _ d => decide (d ≤ due)

@[simp] theorem Port.canPrecede_idle {served due : Nat} {r : Option Bytes} :
    Port.canPrecede served due ⟨.idle, r⟩ = true ↔ served ≤ due := by
  simp [Port.canPrecede]

@[simp] theorem Port.canPrecede_pending {served due d : Nat} {frame : Bytes} {r : Option Bytes} :
    Port.canPrecede served due ⟨.pending frame d, r⟩ = true ↔ served ≤ due ∨ d ≤ due := by
  simp [Port.canPrecede]

/-- A higher service count lets no more commands through. -/
theorem Port.canPrecede_of_succ {served due : Nat} {q : Port} (h : Port.canPrecede (served + 1) due q = true) :
    Port.canPrecede served due q = true := by
  obtain ⟨_ | ⟨frame, d⟩, r⟩ := q
  · rw [canPrecede_idle] at *
    omega
  · rw [canPrecede_pending] at *
    omega

/-- How many services can come up to and with that of a command stamped `due`: those until the service count has passed
the stamp, and one for each port that can precede it. -/
def State.servicesLeft (due : Nat) (s : State) : Nat :=
  (due + 1 - s.served) + s.ports.countP (Port.canPrecede s.served due)

/-- The bound in the terms of R290: the stamp and the number of ports. -/
theorem State.servicesLeft_le (due : Nat) (s : State) : s.servicesLeft due ≤ (due + 1 - s.served) + s.ports.length :=
  Nat.add_le_add_left List.countP_le_length _

/-! ### A pending command under each event -/

section
variable {s : State} {p : Nat} {frame : Bytes} {due : Nat} {old : Option Bytes}

/-- At least its own service is left to a pending command. -/
theorem State.servicesLeft_pos (h : s.ports[p]? = some ⟨.pending frame due, old⟩) : 0 < s.servicesLeft due :=
  Nat.lt_of_lt_of_le
    (List.countP_pos_iff.mpr ⟨_, List.mem_of_getElem? h, Port.canPrecede_pending.mpr (.inr (Nat.le_refl due))⟩)
    (Nat.le_add_left _ _)

/-- R380: while a command is pending no reset is taken. -/
theorem State.after_reset_of_pending (h : s.ports[p]? = some ⟨.pending frame due, old⟩) (c : ConfigRecord) :
    s.after (.reset c) = s := by
  have busy : s.allIdle = false := by
    rw [State.allIdle, List.all_eq_false]
    exact ⟨_, List.mem_of_getElem? h, by simp⟩
  simp [State.after, State.resetWith, busy]

/-- A submission leaves a pending port as it is, and lets no further service come before its command. -/
theorem State.after_submit_of_pending (h : s.ports[p]? = some ⟨.pending frame due, old⟩) (q : Nat) (f : Bytes) :
    (s.after (.submit q f)).ports[p]? = some ⟨.pending frame due, old⟩ ∧
      (s.after (.submit q f)).servicesLeft due ≤ s.servicesLeft due := by
  obtain same | ⟨r, d, idle, hd, accepted⟩ := s.after_submit_cases q f
  · rw [same]
    exact ⟨h, Nat.le_refl _⟩
  · rw [accepted]
    constructor
    · have other : q ≠ p := by
        rintro rfl
        simp [idle] at h
      rw [List.getElem?_set_ne other, h]
    · have count := countP_set_add_le (g := Port.canPrecede s.served due) (fun _ hx => hx) idle ⟨.pending f d, none⟩
      simp only [Port.canPrecede_idle, Port.canPrecede_pending] at count
      simp only [State.servicesLeft]
      split_ifs at count <;> omega

/-- An arbiter step answers a pending command, or serves one that precedes it, and then a service fewer is left. -/
theorem State.after_serve_of_pending (h : s.ports[p]? = some ⟨.pending frame due, old⟩) :
    (∃ response, (s.after .serve).ports[p]? = some ⟨.idle, some response⟩) ∨
      ((s.after .serve).ports[p]? = some ⟨.pending frame due, old⟩ ∧
        (s.after .serve).servicesLeft due < s.servicesLeft due) := by
  obtain ⟨c, chosen⟩ : ∃ c, selectPort 0 s.ports = some c :=
    Option.ne_none_iff_exists'.mp fun idle => by simpa using selectPort_none.mp idle _ (List.mem_of_getElem? h)
  obtain ⟨-, ⟨r, hc⟩, first⟩ := selectPort_some chosen
  obtain ⟨t, response, hstep, hports, -, hserved⟩ := everyServedCommandIsAnsweredOnce s c chosen
  have after : s.after .serve = t := by simp only [State.after, hstep]
  rw [after, State.servicesLeft, hports, hserved]
  by_cases own : c.port = p
  · subst own
    exact .inl ⟨response, List.getElem?_set_self (List.getElem?_eq_some_iff.mp h).1⟩
  · refine .inr ⟨by rw [List.getElem?_set_ne own, h], ?_⟩
    have precedes : c.due ≤ due := by
      have := first p frame due old h
      omega
    have count := countP_set_add_le (g := Port.canPrecede (s.served + 1) due) (fun _ => Port.canPrecede_of_succ) hc
      ⟨.idle, some response⟩
    simp only [Port.canPrecede_idle, Port.canPrecede_pending, precedes, or_true, if_true, Nat.sub_zero] at count
    simp only [State.servicesLeft]
    split_ifs at count <;> omega

end

/-- A pending command is answered along every sequence of events with as many arbiter steps as services are left. -/
theorem answered_of_servicesLeft_le {p : Nat} {frame : Bytes} {due : Nat} {old : Option Bytes} (es : List HostEvent)
    (s : State) (h : s.ports[p]? = some ⟨.pending frame due, old⟩)
    (enough : s.servicesLeft due ≤ es.countP fun e => e == .serve) :
    ∃ n response, n ≤ es.length ∧ (s.afterAll (es.take n)).ports[p]? = some ⟨.idle, some response⟩ := by
  induction es generalizing s with
  | nil => exact absurd enough (Nat.not_le.mpr (State.servicesLeft_pos h))
  | cons e es ih =>
    have later : (s.after e).ports[p]? = some ⟨.pending frame due, old⟩ →
        (s.after e).servicesLeft due ≤ (es.countP fun e => e == .serve) →
        ∃ n response, n ≤ (e :: es).length ∧
          (s.afterAll ((e :: es).take n)).ports[p]? = some ⟨.idle, some response⟩ := fun pending left => by
      obtain ⟨n, response, hn, answered⟩ := ih (s.after e) pending left
      exact ⟨n + 1, response, Nat.succ_le_succ hn, answered⟩
    cases e with
    | reset c =>
      rw [State.after_reset_of_pending h] at later
      exact later h (by simpa using enough)
    | submit q f =>
      obtain ⟨pending, left⟩ := State.after_submit_of_pending h q f
      exact later pending (left.trans (by simpa using enough))
    | serve =>
      obtain ⟨response, answered⟩ | ⟨pending, left⟩ := State.after_serve_of_pending h
      · exact ⟨1, response, by simp, answered⟩
      · refine later pending (Nat.le_of_lt_succ (Nat.lt_of_lt_of_le left ?_))
        simpa using enough

/-- Settles O10: the services left never grow, each arbiter step takes one of them, and there are at most so many as the
bound says. -/
theorem pendingCommandIsEventuallyServed : Obligations.PendingCommandIsEventuallyServed :=
  fun s es _ _ due _ pending enough =>
    answered_of_servicesLeft_le es s pending ((s.servicesLeft_le due).trans enough)

end Sys2Proof.Machine
end

section
/-! SUPPORT. The session commands (`44_session.md` sections 1 and 2): the answers of LIST_AIDS, OPEN_CHANNEL,
CLOSE_CHANNEL and LOOKUP (R270 to R276), and what follows for sequences of them (R280, R390). -/

namespace Sys2Proof.Machine

/-! ### The first slot of a kind -/

/-- The first slot that is selected, rewritten; nothing where none is. -/
def SessionTable.modifyFirst (sel : Slot → Bool) (f : Slot → Slot) (t : SessionTable) : SessionTable :=
  if sel t.slot0 then { t with slot0 := f t.slot0 }
  else if sel t.slot1 then { t with slot1 := f t.slot1 }
  else if sel t.slot2 then { t with slot2 := f t.slot2 }
  else if sel t.slot3 then { t with slot3 := f t.slot3 }
  else t

/-- R273: a new session replaces the first slot that is not valid. -/
theorem put_eq_modifyFirst (t : SessionTable) (k : Slot) : t.put k = t.modifyFirst (fun u => !u.valid) fun _ => k := rfl

/-- R274: a close rewrites the first valid slot of the id. -/
theorem close_eq_modifyFirst (t : SessionTable) (id : U16) :
    t.close id = t.modifyFirst (fun u => u.valid && u.id == id) Slot.closed := rfl

/-- Where slot `j` is selected and no lower one is, slot `j` is the one rewritten. -/
theorem slots_modifyFirst {sel : Slot → Bool} (f : Slot → Slot) {t : SessionTable} {j : Nat} {k : Slot}
    (hk : t.slots[j]? = some k) (selected : sel k = true)
    (lower : ∀ m u, m < j → t.slots[m]? = some u → sel u = false) :
    (t.modifyFirst sel f).slots = t.slots.set j (f k) := by
  obtain ⟨a, b, c, d⟩ := t
  unfold SessionTable.modifyFirst
  match j with
  | 0 =>
    cases hk
    simp [selected, SessionTable.slots]
  | 1 =>
    cases hk
    have h0 : sel a = false := lower 0 a (by decide) rfl
    simp [h0, selected, SessionTable.slots]
  | 2 =>
    cases hk
    have h0 : sel a = false := lower 0 a (by decide) rfl
    have h1 : sel b = false := lower 1 b (by decide) rfl
    simp [h0, h1, selected, SessionTable.slots]
  | 3 =>
    cases hk
    have h0 : sel a = false := lower 0 a (by decide) rfl
    have h1 : sel b = false := lower 1 b (by decide) rfl
    have h2 : sel c = false := lower 2 c (by decide) rfl
    simp [h0, h1, h2, selected, SessionTable.slots]
  | j + 4 => simp [SessionTable.slots] at hk

/-- Settles O23: the first slot that is not valid is the one that `put` rewrites. -/
theorem newSessionTakesTheLowestFreeSlot : Obligations.NewSessionTakesTheLowestFreeSlot := by
  intro t k free j hfree invalid lower
  rw [put_eq_modifyFirst]
  exact slots_modifyFirst _ hfree (by simp [invalid]) fun m u hm hu => by simp [lower m u hm hu]

/-- Where ids are distinct, the open session of a lower slot has another id (R31 b). -/
theorem id_ne_of_lower_slot {t : SessionTable} (distinct : t.inUse.Nodup) {m j : Nat} {u k : Slot} (hm : m < j)
    (hu : t.slots[m]? = some u) (hk : t.slots[j]? = some k) (uvalid : u.valid = true) (kvalid : k.valid = true) :
    u.id ≠ k.id := by
  have apart := List.pairwise_filter.mp (List.pairwise_map.mp distinct)
  obtain ⟨hmlen, rfl⟩ := List.getElem?_eq_some_iff.mp hu
  obtain ⟨hjlen, rfl⟩ := List.getElem?_eq_some_iff.mp hk
  exact List.pairwise_iff_getElem.mp apart m j hmlen hjlen hm uvalid kvalid

/-- R274: where ids are distinct, a close makes the slot that holds the session invalid and changes no other. -/
theorem slots_close_of_open {t : SessionTable} (distinct : t.inUse.Nodup) {j : Nat} {k : Slot}
    (hk : t.slots[j]? = some k) (valid : k.valid = true) :
    (t.close k.id).slots = t.slots.set j { k with valid := false } := by
  rw [close_eq_modifyFirst]
  refine slots_modifyFirst Slot.closed hk (by simp [valid]) fun m u hm hu => ?_
  cases uvalid : u.valid with
  | false => rfl
  | true => simpa using id_ne_of_lower_slot distinct hm hu hk uvalid valid

/-! ### LIST_AIDS, CLOSE_CHANNEL and LOOKUP -/

/-- Settles O21: the listing is the count and then each entry, by definition. -/
theorem listAidsResult : Obligations.ListAidsResult := fun _ => rfl

/-- Settles O25: an id not in use is only answered; the slot of an open session is the one the close rewrites. -/
theorem closeChannelResult : Obligations.CloseChannelResult := by
  intro id s
  refine ⟨exec_closeChannel_of_notMem, ?_⟩
  rintro j k distinct hk valid rfl
  exact ⟨s.sess.close k.id, slots_close_of_open distinct hk valid, rfl⟩

/-- LOOKUP answers the AID and the type of the session found (R275). -/
theorem exec_lookup_of_find {id : U16} {k : Slot} {s : State} (found : s.sess.find id = some k) :
    exec (.lookup id) s = .next (s.respond (aidAndType k.aid k.type)) := by
  simp only [exec, execLookup, found]

/-- Settles O27: an id not in use is refused; where ids are distinct the session found is the one of the id. -/
theorem lookupResult : Obligations.LookupResult := by
  intro id s
  refine ⟨NeedsSession.lookup.exec_of_notMem, fun k distinct hopen hid => ?_⟩
  rw [exec_lookup_of_find ((find_eq_some_iff distinct).mpr ⟨hopen, hid⟩)]
  rfl

/-! ### The id of a new session -/

/-- R272: where fewer than four ids are in use, one of the first four candidates is not. -/
theorem exists_candidate_notMem {used : List U16} (room : used.length < 4) (v : U16) :
    ∃ m, m < 4 ∧ succId^[m] v ∉ used := by
  by_contra! taken
  have inside : ((List.range 4).map fun m => succId^[m] v) ⊆ used := by
    intro id hid
    obtain ⟨m, hm, rfl⟩ := List.mem_map.mp hid
    exact taken m (List.mem_range.mp hm)
  have := ((candidates_nodup v).subperm inside).length_le
  simp at this
  omega

/-- Settles O24: the allocator skips ids in use only, so it stops at the first of four candidates that is free. -/
theorem idGivenOutIsTheFirstFree : Obligations.IdGivenOutIsTheFirstFree := by
  refine ⟨rfl, fun v hv => by rw [toNat_succId, if_neg (Nat.ne_of_lt hv)], fun s room => ?_⟩
  obtain ⟨n, -, halloc, skipped, -⟩ := allocId_cases s.sess.inUse Config.maxLogicalChannels s.nextId
  obtain ⟨m, hm, free⟩ := exists_candidate_notMem (by rwa [SessionTable.length_inUse]) s.nextId
  have stops : n ≤ m := Nat.not_lt.mp fun hlt => free (skipped m hlt)
  exact ⟨n, by omega, halloc, State.candidateId_notMem_inUse room, skipped⟩

/-! ### OPEN_CHANNEL -/

/-- With four sessions open the channel limit is raised, whatever the AID (R270). -/
theorem exec_openChannel_of_full {s : State} (full : s.sess.openCount = 4) (aid : Bytes) :
    exec (.openChannel aid) s = .next (s.raise .channelLimit) := by
  have limit : Config.maxLogicalChannels ≤ s.sess.openCount := full.ge
  simp only [exec, execOpenChannel, if_pos limit]

section
variable {s : State} (room : s.sess.openCount < 4)
include room

/-- With fewer, an AID of no entry is unknown (R270). -/
theorem exec_openChannel_of_unknown {aid : Bytes} (unknown : s.cfg.findAid aid = none) :
    exec (.openChannel aid) s = .next (s.raise .unknownAid) := by
  have below : ¬ Config.maxLogicalChannels ≤ s.sess.openCount := Nat.not_le.mpr room
  simp only [exec, execOpenChannel, if_neg below, unknown]

/-- With fewer, the session of the entry found is opened and its id answered (R270). -/
theorem exec_openChannel_of_known {aid : Bytes} {e : AidEntry} (known : s.cfg.findAid aid = some e) :
    exec (.openChannel aid) s = .next ((s.openSession e).respond (u16Bytes s.candidateId)) := by
  have below : ¬ Config.maxLogicalChannels ≤ s.sess.openCount := Nat.not_le.mpr room
  simp only [exec, execOpenChannel, if_neg below, known]

/-- The state that opening a known AID leaves (R270). -/
theorem stateAfter_openChannel_of_known {aid : Bytes} {e : AidEntry} (known : s.cfg.findAid aid = some e) :
    stateAfter (.openChannel aid) s = (s.openSession e).respond (u16Bytes s.candidateId) := by
  simp only [stateAfter, exec_openChannel_of_known room known]

/-- The response to opening a known AID (R270, R96). -/
theorem responseOf_openChannel_of_known {aid : Bytes} {e : AidEntry} (known : s.cfg.findAid aid = some e) :
    responseOf (.openChannel aid) s = some (0x00 :: u16Bytes s.candidateId) := by
  simp only [responseOf, exec_openChannel_of_known room known, State.respond_out]

end

/-- No entry is found exactly for the AIDs of no entry (R271). -/
theorem findAid_eq_none {cfg : CardConfig} {aid : Bytes} : cfg.findAid aid = none ↔ ∀ e ∈ cfg.aids, e.aid ≠ aid := by
  simp [CardConfig.findAid]

/-- In a valid registry the entry found is the one with the AID (R26, R271). -/
theorem findAid_of_mem {cfg : CardConfig} (registry : validAids cfg.aids = true) {e : AidEntry} (he : e ∈ cfg.aids) :
    cfg.findAid e.aid = some e := by
  obtain ⟨-, distinct, -⟩ := validAids_iff.mp registry
  cases hfound : cfg.findAid e.aid with
  | none => exact absurd rfl (findAid_eq_none.mp hfound e he)
  | some found =>
    obtain ⟨hmem, haid⟩ := mem_of_findAid hfound
    rw [List.inj_on_of_nodup_map distinct hmem he haid]

/-- Settles O22: one lemma per branch; a valid registry fixes which entry is found. -/
theorem openChannelResult : Obligations.OpenChannelResult := by
  intro aid s
  refine ⟨fun full => exec_openChannel_of_full full aid,
    fun room unknown => exec_openChannel_of_unknown room (findAid_eq_none.mpr unknown), ?_⟩
  rintro e room registry he rfl
  exact exec_openChannel_of_known room (findAid_of_mem registry he)

/-! ### A session just opened -/

/-- R61: the two bytes of an id determine it. -/
theorem u16Bytes_injective : Function.Injective u16Bytes := by
  intro v w h
  obtain ⟨hi, lo⟩ : v.extractLsb' 8 8 = w.extractLsb' 8 8 ∧ v.extractLsb' 0 8 = w.extractLsb' 0 8 := by
    simpa [u16Bytes] using h
  rw [← u16OfBytes_u16Bytes v, hi, lo, u16OfBytes_u16Bytes]

/-- A new session is found by its id, where the id was not in use (R273, R275). -/
theorem find_put {t : SessionTable} {k : Slot} (valid : k.valid = true) (room : t.openCount < 4)
    (fresh : k.id ∉ t.inUse) : (t.put k).find k.id = some k := by
  have slots := openSlots_put t k valid room
  cases hfound : (t.put k).find k.id with
  | none => exact absurd (List.mem_map_of_mem (slots.mem_iff.mpr List.mem_cons_self)) (find_eq_none.mp hfound)
  | some found =>
    obtain ⟨hmem, hid⟩ := mem_of_find hfound
    obtain rfl | older := List.mem_cons.mp (slots.mem_iff.mp hmem)
    · rfl
    · exact absurd (hid ▸ List.mem_map_of_mem older) fresh

/-- An OPEN_CHANNEL that answers `DONE` and an id opened the session of an entry of the AID, under that id (R270). -/
theorem openChannel_of_done {aid : Bytes} {id : U16} {s : State}
    (answer : responseOf (.openChannel aid) s = some (0x00 :: u16Bytes id)) :
    s.sess.openCount < 4 ∧ id = s.candidateId ∧ ∃ e, s.cfg.findAid aid = some e ∧
      stateAfter (.openChannel aid) s = (s.openSession e).respond (u16Bytes id) := by
  rcases Nat.lt_or_eq_of_le (openCount_le s.sess) with room | full
  · cases hfound : s.cfg.findAid aid with
    | none => simp [responseOf, exec_openChannel_of_unknown room hfound, u16Bytes] at answer
    | some e =>
      rw [responseOf_openChannel_of_known room hfound, Option.some.injEq, List.cons.injEq] at answer
      obtain ⟨-, bytes⟩ := answer
      obtain rfl := u16Bytes_injective bytes
      exact ⟨room, rfl, e, rfl, stateAfter_openChannel_of_known room hfound⟩
  · simp [responseOf, exec_openChannel_of_full full, u16Bytes] at answer

/-- Settles O28: the id answered is the candidate, which was not in use, so the lookup finds the new session. -/
theorem openedSessionIsFoundByItsId : Obligations.OpenedSessionIsFoundByItsId := by
  intro aid id s answer
  obtain ⟨room, rfl, e, known, after⟩ := openChannel_of_done answer
  obtain ⟨he, rfl⟩ := mem_of_findAid known
  have fresh := State.candidateId_notMem_inUse room
  have found := find_put (k := ⟨true, s.candidateId, e.aid, e.type⟩) rfl room fresh
  refine ⟨fresh, e, he, rfl, ?_⟩
  rw [responseOf, after, exec_lookup_of_find found]
  rfl

/-! ### Opening until the limit -/

/-- `n` sessions are open, with distinct ids, on the card of configuration `cfg`. -/
structure State.HasOpen (cfg : CardConfig) (n : Nat) (s : State) : Prop where
  cfg_eq : s.cfg = cfg
  openCount_eq : s.sess.openCount = n
  idsDistinct : s.sess.inUse.Nodup

/-- With no session open there are no ids. -/
theorem State.HasOpen.of_openSlots_nil {s : State} (h : s.sess.openSlots = []) : s.HasOpen s.cfg 0 where
  cfg_eq := rfl
  openCount_eq := by rw [SessionTable.openCount, h, List.length_nil]
  idsDistinct := by simp [SessionTable.inUse, h]

/-- R270, R272: below the limit, opening a known AID opens one session more, and the ids stay distinct. -/
theorem State.HasOpen.openChannel {cfg : CardConfig} {n : Nat} {s : State} (h : s.HasOpen cfg n) {aid : Bytes}
    (known : (cfg.findAid aid).isSome = true) (room : n < 4) :
    (stateAfter (.openChannel aid) s).HasOpen cfg (n + 1) := by
  obtain ⟨rfl, rfl, distinct⟩ := h
  obtain ⟨e, found⟩ := Option.isSome_iff_exists.mp known
  have slots := openSlots_put s.sess ⟨true, s.candidateId, e.aid, e.type⟩ rfl room
  rw [stateAfter_openChannel_of_known room found]
  exact {
    cfg_eq := rfl
    openCount_eq := slots.length_eq
    idsDistinct := (slots.map _).nodup_iff.mpr
      (List.nodup_cons.mpr ⟨State.candidateId_notMem_inUse room, distinct⟩) }

/-- R274: closing an open session leaves fewer open. -/
theorem openCount_close_lt {t : SessionTable} {id : U16} (distinct : t.inUse.Nodup) (used : id ∈ t.inUse) :
    (t.close id).openCount < t.openCount := by
  obtain ⟨k, hk, rfl⟩ := List.mem_map.mp used
  rw [SessionTable.openCount, openSlots_close t _ distinct]
  exact List.length_filter_lt_length_iff_exists.mpr ⟨k, hk, by simp⟩

/-- An error leaves the sessions open (R350). -/
theorem State.HasOpen.raise {cfg : CardConfig} {n : Nat} {s : State} (h : s.HasOpen cfg n) (e : ErrorCode) :
    (s.raise e).HasOpen cfg n := ⟨h.cfg_eq, h.openCount_eq, h.idsDistinct⟩

/-- R270, R274: after the close of an open session, opening a known AID answers an id. -/
theorem State.HasOpen.open_after_close {cfg : CardConfig} {n : Nat} {s : State} (h : s.HasOpen cfg n) {id : U16}
    (used : id ∈ s.sess.inUse) {aid : Bytes} (known : (cfg.findAid aid).isSome = true) :
    ∃ newId, responseOf (.openChannel aid) (stateAfter (.closeChannel id) s) = some (0x00 :: u16Bytes newId) := by
  obtain ⟨rfl, -, distinct⟩ := h
  obtain ⟨e, found⟩ := Option.isSome_iff_exists.mp known
  have room : (stateAfter (.closeChannel id) s).sess.openCount < 4 :=
    Nat.lt_of_lt_of_le (openCount_close_lt distinct used) (openCount_le s.sess)
  exact ⟨_, responseOf_openChannel_of_known room found⟩

/-- Settles O29: four opens fill the table with distinct ids; the refused open leaves it so, and a close makes room. -/
theorem fifthOpenFailsUntilAClose : Obligations.FifthOpenFailsUntilAClose := by
  intro a1 a2 a3 a4 a5 a6 s id noSession known full refused
  simp only [List.forall_mem_cons] at known
  obtain ⟨known1, known2, known3, known4, known6, -⟩ := known
  have one := (State.HasOpen.of_openSlots_nil noSession).openChannel known1 (by decide)
  have two := one.openChannel known2 (by decide)
  have three := two.openChannel known3 (by decide)
  have four : full.HasOpen s.cfg 4 := three.openChannel known4 (by decide)
  have fifth : exec (.openChannel a5) full = .next (full.raise .channelLimit) :=
    exec_openChannel_of_full four.openCount_eq a5
  have unchanged : refused = full.raise .channelLimit := by simp only [refused, stateAfter, fifth]
  -- From here on only what is known of `full` counts, not the four opens it comes from.
  clear_value full
  refine ⟨four.openCount_eq, by rw [responseOf, fifth]; rfl, fun used => ?_⟩
  rw [unchanged]
  exact (four.raise .channelLimit).open_after_close used known6

end Sys2Proof.Machine
end

section
/-! SUPPORT. How the AT adapter reads a line (`45_at_adapter.md` section 2): recognition of the keyword, the capability
query, and which commands a line of each keyword can issue (R301 to R312). -/

namespace Sys2Proof.Machine

/-! ### Recognition -/

/-- The five keywords have equally long texts (R301). -/
theorem AtKeyword.length_text (kw : AtKeyword) : kw.text.length = 7 := by cases kw <;> rfl

/-- No two keywords have the same text (R301). -/
theorem AtKeyword.text_injective : Function.Injective AtKeyword.text := by
  intro kw kw'
  cases kw <;> cases kw' <;> decide

/-- A keyword followed by the end of the line or by `=` is found, and leaves the text after it (R301). -/
theorem afterKeyword_text (kw : AtKeyword) {rest : Bytes} (h : rest = [] ∨ rest.head? = some eqSign) :
    afterKeyword kw (kw.text ++ rest) = some rest := by
  cases rest with
  | nil => simp [afterKeyword]
  | cons c rest =>
    have hc : c = eqSign := by simpa using h
    simp [afterKeyword, hc]

/-- A line that begins with one keyword does not begin with another one (R301). -/
theorem afterKeyword_of_ne {kw kw' : AtKeyword} (h : kw' ≠ kw) (rest : Bytes) :
    afterKeyword kw' (kw.text ++ rest) = none := by
  refine if_neg fun found => h (AtKeyword.text_injective ?_)
  have lengths : kw'.text.length = kw.text.length := by rw [kw'.length_text, kw.length_text]
  have begins : kw'.text <+: kw.text :=
    List.prefix_of_prefix_length_le (List.isPrefixOf_iff_prefix.mp found) (List.prefix_append _ _) lengths.le
  exact begins.eq_of_length lengths

/-- A line of a keyword is recognised as that keyword's (R301). -/
theorem recognise_text (kw : AtKeyword) {rest : Bytes} (h : rest = [] ∨ rest.head? = some eqSign) :
    recognise (kw.text ++ rest) = some (kw, rest) := by
  have own := afterKeyword_text kw h
  cases kw <;> simp [recognise, own, afterKeyword_of_ne]

/-! ### The capability query -/

/-- `=?` at the end of a line makes it a query (R304). -/
theorem isQuery_append (line : Bytes) : isQuery (line ++ [eqSign, questionMark]) = true := by
  simp [isQuery]

/-- A recognised line ending in `=?` is a query, whatever stands between (R304). -/
theorem atParse_of_query (kw : AtKeyword) {args : Bytes} (h : args = [] ∨ args.head? = some eqSign) :
    atParse (kw.text ++ args ++ [eqSign, questionMark]) = .query := by
  have starts : args ++ [eqSign, questionMark] = [] ∨ (args ++ [eqSign, questionMark]).head? = some eqSign := by
    obtain rfl | hargs := h
    · exact .inr rfl
    · exact .inr (by rw [List.head?_append, hargs, Option.some_or])
  have query := isQuery_append (kw.text ++ args)
  rw [List.append_assoc] at query ⊢
  simp only [atParse, recognise_text kw starts, query, if_true]

/-- Settles O56: the line is a query, and a query is answered before any port or state is looked at. -/
theorem capabilityQueryHasNoEffect : Obligations.CapabilityQueryHasNoEffect := by
  intro kw args p s h
  simp only [atLine, atParse_of_query kw h]

/-! ### The commands a line issues -/

/-- The commands a line of each keyword can issue, with the bound its argument rules put on the operand (R303, R307 to
R312). -/
inductive Issuable : AtKeyword → Instr → Prop where
  | listAids : Issuable .cuad .listAids
  | openChannel (aid : Bytes) (fits : aid.length ≤ 255) : Issuable .ccho (.openChannel aid)
  | closeChannel (id : U16) : Issuable .cchc (.closeChannel id)
  | apdu (id : U16) (apdu : Bytes) (fits : apdu.length ≤ 65535) : Issuable .cgla (apduCommand id apdu)
  | fileAccess (id : U16) (cmd : Bytes) (fits : cmd.length ≤ 65535) : Issuable .crla (.fileAccess id cmd)

/-- A hexadecimal field stands for no more bytes than its bound (R303). -/
theorem length_le_of_parseHexField {least most : Nat} {t x : Bytes} (h : parseHexField least most t = some x) :
    x.length ≤ most := by
  simp only [parseHexField, Option.bind_eq_bind, Option.bind_eq_some_iff] at h
  obtain ⟨inner, -, y, -, hy⟩ := h
  split at hy
  · next bounds =>
    cases hy
    exact bounds.2
  · cases hy

/-- The command of an argument text is one its keyword can issue (R306, R308 to R312). -/
theorem issuable_of_atCommand {kw : AtKeyword} {args : Bytes} {i : Instr} (h : atCommand kw args = some i) :
    Issuable kw i := by
  cases kw with
  | cuad => cases h
  | ccho =>
    simp only [atCommand] at h
    split at h
    · obtain ⟨aid, haid, rfl⟩ := Option.map_eq_some_iff.mp h
      exact .openChannel aid (length_le_of_parseHexField haid)
    · cases h
  | cchc =>
    simp only [atCommand] at h
    split at h
    · obtain ⟨id, -, rfl⟩ := Option.map_eq_some_iff.mp h
      exact .closeChannel id
    · cases h
  | cgla =>
    simp only [atCommand] at h
    split at h
    · simp only [Option.bind_eq_bind, Option.bind_eq_some_iff] at h
      obtain ⟨id, -, _, -, apdu, hapdu, hi⟩ := h
      cases hi
      exact .apdu id apdu (length_le_of_parseHexField hapdu)
    · cases h
  | crla =>
    simp only [atCommand, Option.bind_eq_bind, Option.bind_eq_some_iff] at h
    obtain ⟨⟨idText, cmd⟩, -, id, -, hi⟩ := h
    split at hi
    · next fits =>
      cases hi
      exact .fileAccess id cmd fits
    · cases hi

/-- What a line issues is a command its keyword can issue (R305, R307 to R312). -/
theorem issuable_of_atParse {line : Bytes} {kw : AtKeyword} {i : Instr} (h : atParse line = .issue kw i) :
    Issuable kw i := by
  unfold atParse at h
  split at h
  · cases h
  split at h
  · cases h
  split at h
  · cases h
  split at h
  · split at h
    · cases h
      exact .listAids
    · cases h
  · split at h
    · next hcommand =>
      cases h
      exact issuable_of_atCommand hcommand
    · cases h

/-- R315: an issued command fits its frame. -/
theorem Issuable.wf {kw : AtKeyword} {i : Instr} (h : Issuable kw i) : i.wf = true := by
  cases h with
  | listAids => rfl
  | openChannel aid fits => exact decide_eq_true (Nat.lt_succ_of_le fits)
  | closeChannel id => rfl
  | apdu id apdu fits =>
    obtain ⟨-, -, hwf⟩ := apduCommand_frame id apdu
    rw [hwf]
    exact decide_eq_true (Nat.lt_succ_of_le fits)
  | fileAccess id cmd fits => exact decide_eq_true (Nat.lt_succ_of_le fits)

/-- R315: an issued command's opcode is one of the first six. -/
theorem Issuable.opcode_range {kw : AtKeyword} {i : Instr} (h : Issuable kw i) :
    0x01 ≤ (opcodeOf i).toNat ∧ (opcodeOf i).toNat ≤ 0x06 := by
  cases h with
  | listAids => decide
  | openChannel aid fits => simp [opcodeOf]
  | closeChannel id => simp [opcodeOf]
  | apdu id apdu fits =>
    obtain ⟨hop, -, -⟩ := apduCommand_frame id apdu
    rw [hop]
    decide
  | fileAccess id cmd fits => simp [opcodeOf]

end Sys2Proof.Machine
end

section
/-! SUPPORT. What a command that the AT adapter issues does (R307 to R315), and FILE_ACCESS (R313, R314). -/

namespace Sys2Proof.Machine

/-! ### FILE_ACCESS -/

/-- The collaborator's text fits its `LV2` field (R91, R313). -/
theorem length_fileAnswer_le (stream n : Nat) (cmd : Bytes) : (fileAnswer stream n cmd).2.length ≤ 65535 := by
  have := (Config.fileLen stream n cmd).isLt
  simp only [fileAnswer, List.length_map, List.length_range]
  omega

/-- On a session found, FILE_ACCESS makes one call and answers it (R314). -/
theorem exec_fileAccess_of_find {id : U16} {k : Slot} {s : State} (found : s.sess.find id = some k) (cmd : Bytes) :
    exec (.fileAccess id cmd) s =
      .next (s.countFileCall.respond (filePayload (fileAnswer s.stream s.fsCalls cmd))) := by
  simp only [exec, execFileAccess, found]

/-- Settles O50: the session is looked up first, and the collaborator is called only where one is found. -/
theorem fileAccessResult : Obligations.FileAccessResult := by
  intro id cmd s
  refine ⟨(NeedsSession.fileAccess cmd).exec_of_notMem, fun used => ?_, length_fileAnswer_le _ _ _⟩
  obtain ⟨k, found⟩ : ∃ k, s.sess.find id = some k :=
    Option.ne_none_iff_exists'.mp fun missing => find_eq_none.mp missing used
  rw [exec_fileAccess_of_find found]
  rfl

/-! ### APDU commands -/

/-- The GSM path answers a card response (R241, R243). -/
theorem gsmPath_cardRespond (body : Bytes) (s : State) : ∃ card, s.gsmPath body = s.cardRespond card := by
  unfold State.gsmPath
  split
  · exact ⟨_, rfl⟩
  · split <;> exact ⟨_, rfl⟩

/-- The UMTS path answers a card response, also without a cipher (R206, R241, R244). -/
theorem umtsPath_cardRespond (body : Bytes) (s : State) : ∃ card, s.umtsPath body = s.cardRespond card := by
  unfold State.umtsPath
  split
  · exact ⟨_, rfl⟩
  · split
    · exact ⟨_, rfl⟩
    · split <;> exact ⟨_, rfl⟩

/-- An APDU on an open session is answered by a card response (R242). -/
theorem routeApdu_cardRespond (t : AppType) (apdu : Bytes) (s : State) :
    ∃ card, s.routeApdu t apdu = s.cardRespond card := by
  unfold State.routeApdu
  split
  · split
    · exact ⟨_, rfl⟩
    · exact gsmPath_cardRespond _ s
    · exact umtsPath_cardRespond _ s
  · exact ⟨_, rfl⟩

/-- The command of an APDU does what APDU_EXEC of that APDU does, whichever row it is written as (R240). -/
theorem exec_apduCommand (id : U16) (apdu : Bytes) (s : State) :
    exec (apduCommand id apdu) s = exec (.apduExec id apdu) s := by
  unfold apduCommand
  split
  · next hgsm =>
    have whole : gsmHeader ++ apdu.drop 5 = apdu := hgsm ▸ List.take_append_drop 5 apdu
    exact (authenticateIsApduExecOfItsHeader id _ s).1.trans (congrArg (fun x => exec (.apduExec id x) s) whole)
  · split
    · next humts =>
      have whole : umtsHeader ++ apdu.drop 5 = apdu := humts ▸ List.take_append_drop 5 apdu
      exact (authenticateIsApduExecOfItsHeader id _ s).2.trans (congrArg (fun x => exec (.apduExec id x) s) whole)
    · rfl

/-! ### The issued commands -/

/-- What an issued command does: it raises one of the three errors left by R315, or answers `DONE` as its keyword's
command does. -/
inductive IssuedEffect (s : State) : AtKeyword → State → Prop where
  | refused (kw : AtKeyword) (e : ErrorCode) (he : e = .channelLimit ∨ e = .unknownAid ∨ e = .notFound) :
      IssuedEffect s kw (s.raise e)
  | listed : IssuedEffect s .cuad (s.respond s.cfg.listing)
  | opened (e : AidEntry) : IssuedEffect s .ccho ((s.openSession e).respond (u16Bytes s.candidateId))
  | closed (id : U16) : IssuedEffect s .cchc ((s.closeSession id).respond [])
  | answered (card : Bytes) : IssuedEffect s .cgla (s.cardRespond card)
  | called (cmd : Bytes) :
      IssuedEffect s .crla (s.countFileCall.respond (filePayload (fileAnswer s.stream s.fsCalls cmd)))

/-- R315: every issued command has one of these effects, in every state. -/
theorem Issuable.exec_effect {kw : AtKeyword} {i : Instr} (h : Issuable kw i) (s : State) :
    ∃ t, exec i s = .next t ∧ IssuedEffect s kw t := by
  cases h with
  | listAids => exact ⟨_, rfl, .listed⟩
  | openChannel aid fits =>
    refine ⟨_, rfl, ?_⟩
    split
    · exact .refused _ _ (.inl rfl)
    · split
      · exact .refused _ _ (.inr (.inl rfl))
      · exact .opened _
  | closeChannel id => exact ⟨_, rfl, .closed id⟩
  | apdu id apdu fits =>
    rw [exec_apduCommand]
    cases found : s.sess.find id with
    | none =>
      have missing := find_eq_none.mp found
      exact ⟨_, (NeedsSession.apduExec apdu).exec_of_notMem missing, .refused _ _ (.inr (.inr rfl))⟩
    | some k =>
      obtain ⟨card, hcard⟩ := routeApdu_cardRespond k.type apdu s
      exact ⟨_, by rw [exec_apduExec_of_find found, hcard], .answered card⟩
  | fileAccess id cmd fits =>
    cases found : s.sess.find id with
    | none =>
      have missing := find_eq_none.mp found
      exact ⟨_, (NeedsSession.fileAccess cmd).exec_of_notMem missing, .refused _ _ (.inr (.inr rfl))⟩
    | some k => exact ⟨_, exec_fileAccess_of_find found cmd, .called cmd⟩

/-- R315: the result code of an issued command is `DONE` or one of 02, 03 and 04. -/
theorem IssuedEffect.resultCode {s t : State} {kw : AtKeyword} (h : IssuedEffect s kw t) :
    ∃ rc payload, t.out = some (rc :: payload) ∧ rc ≠ 0x01 ∧ rc ≠ 0x05 ∧ rc ≠ 0x06 := by
  have done : ∀ payload : Bytes, t.out = some (0x00 :: payload) →
      ∃ rc payload, t.out = some (rc :: payload) ∧ rc ≠ 0x01 ∧ rc ≠ 0x05 ∧ rc ≠ 0x06 :=
    fun payload hout => ⟨0x00, payload, hout, by decide⟩
  cases h with
  | refused _ e he =>
    refine ⟨e.rc, [], rfl, ?_⟩
    obtain rfl | rfl | rfl := he <;> decide
  | listed => exact done _ rfl
  | opened e => exact done _ rfl
  | closed id => exact done _ rfl
  | answered card => exact done _ rfl
  | called cmd => exact done _ rfl

/-- The response is the one in the state the command gives. -/
theorem responseOf_of_exec {i : Instr} {s t : State} (run : exec i s = .next t) : responseOf i s = t.out := by
  rw [responseOf, run]

/-- Settles O57: the argument rules bound the operands, so the frame is that of a well-formed command, and each of the
five commands raises no error but the limit, an unknown AID or an unknown session. -/
theorem adapterIssuesOnlyGoodFrames : Obligations.AdapterIssuesOnlyGoodFrames := by
  intro line kw i s parsed
  have issuable := issuable_of_atParse parsed
  obtain ⟨least, most⟩ := issuable.opcode_range
  obtain ⟨t, run, effect⟩ := issuable.exec_effect s
  obtain ⟨rc, payload, hout, hrc⟩ := effect.resultCode
  exact ⟨decodeInvertsEncode i issuable.wf, least, most, rc, payload, (responseOf_of_exec run).trans hout, hrc⟩

end Sys2Proof.Machine
end

section
/-! SUPPORT. A command string on an instance with no command pending: the command issued is the next one served, and its
response is what the reply lines render (R300, R302, R311, R316). -/

namespace Sys2Proof.Machine

/-! ### The only pending command -/

/-- Every port is idle (R380). -/
theorem State.allIdle_iff {s : State} : s.allIdle = true ↔ ∀ q ∈ s.ports, q.status = .idle := by
  simp [State.allIdle]

/-- Where every port is idle, one made pending is the one chosen (R290). -/
theorem selectPort_set_pending {ports : List Port} (idle : ∀ q ∈ ports, q.status = .idle) {p : Nat}
    (hp : p < ports.length) (frame : Bytes) (due : Nat) (r : Option Bytes) :
    selectPort 0 (ports.set p ⟨.pending frame due, r⟩) = some ⟨p, frame, due⟩ := by
  cases chosen : selectPort 0 (ports.set p ⟨.pending frame due, r⟩) with
  | none => exact absurd (selectPort_none.mp chosen _ (List.mem_set hp _)) (by simp)
  | some c =>
    obtain ⟨port, f, d⟩ := c
    obtain ⟨-, ⟨r', hport⟩, -⟩ := selectPort_some chosen
    by_cases same : p = port
    · subst same
      cases hport.symm.trans (List.getElem?_set_self hp)
      rfl
    · have kept : ports[port]? = some ⟨.pending f d, r'⟩ := by simpa [List.getElem?_set_ne same] using hport
      exact absurd (idle _ (List.mem_of_getElem? kept)) (by simp)

/-- No command reads the ports or the count of submissions, and none writes them (R21, R70). -/
theorem exec_withPorts {i : Instr} {s t : State} (ports : List Port) (submitted : Nat) (run : exec i s = .next t) :
    exec i { s with ports := ports, submitted := submitted } =
      .next { t with ports := ports, submitted := submitted } := by
  have view : SameView s { s with ports := ports, submitted := submitted } := ⟨rfl, rfl, fun _ => rfl, rfl⟩
  obtain ⟨u, u', hu, hu', same⟩ := exec_sameEffect i view fun _ => rfl
  cases hu.symm.trans run
  rw [hu']
  cases same <;> rfl

/-! ### Submission and service -/

/-- The state `t` a command gave, with its response delivered on port `p`, to which it was submitted (R290). -/
def State.submittedAndDelivered (p : Nat) (t : State) : State :=
  { t with
    ports := t.ports.set p ⟨.idle, t.out⟩
    submitted := t.submitted + 1
    out := none
    served := t.served + 1 }

/-- Delivery leaves every port idle where all were (R290). -/
theorem State.allIdle_submittedAndDelivered {t : State} (idle : t.allIdle = true) (p : Nat) :
    (t.submittedAndDelivered p).allIdle = true := by
  rw [State.allIdle_iff] at idle ⊢
  intro q hq
  obtain hold | rfl := List.mem_or_eq_of_mem_set hq
  · exact idle q hold
  · rfl

/-- Delivery is read on the port it was made on (R290). -/
theorem getElem?_submittedAndDelivered {t : State} {p : Nat} (hp : p < t.ports.length) :
    (t.submittedAndDelivered p).ports[p]? = some ⟨.idle, t.out⟩ := List.getElem?_set_self hp

/-- With no other command pending, a command submitted is the one the next step runs (R290). -/
theorem step_of_only_pending {s t : State} {i : Instr} {frame : Bytes} {p : Nat} (idle : s.allIdle = true)
    (hp : p < s.ports.length) (decoded : decode frame = .ok i) (run : exec i s = .next t) (due : Nat) :
    step { s with ports := s.ports.set p ⟨.pending frame due, none⟩, submitted := s.submitted + 1 } =
      .next (t.submittedAndDelivered p) := by
  obtain ⟨-, hports, -, hsubmitted, -⟩ := (effect_of_exec run).frame
  rw [stepRunsTheChosenCommand _ _ _ _ (selectPort_set_pending (State.allIdle_iff.mp idle) hp frame due none) decoded
    (exec_withPorts _ _ run)]
  simp only [State.submittedAndDelivered, List.set_set, hports, hsubmitted]

/-- An idle port is not waited for (R300). -/
theorem serveUntilIdle_of_idle {s : State} {p : Nat} {r : Option Bytes} (h : s.ports[p]? = some ⟨.idle, r⟩)
    (fuel : Nat) : s.serveUntilIdle fuel p = s := by
  cases fuel with
  | zero => rfl
  | succ fuel => simp only [State.serveUntilIdle, h]

/-- A step that answers the pending port is the only one waited for (R300). -/
theorem serveUntilIdle_of_step {s t : State} {p : Nat} {frame : Bytes} {due fuel : Nat} {old r : Option Bytes}
    (some_fuel : 0 < fuel) (pending : s.ports[p]? = some ⟨.pending frame due, old⟩) (stepped : step s = .next t)
    (answered : t.ports[p]? = some ⟨.idle, r⟩) : s.serveUntilIdle fuel p = t := by
  cases fuel with
  | zero => cases some_fuel
  | succ fuel => simp only [State.serveUntilIdle, pending, stepped, serveUntilIdle_of_idle answered]

/-- R300: with no other command pending, the reply renders the response of the command issued, and the state is the one
the command gave, its response delivered. -/
theorem atLine_of_issue {line : Bytes} {kw : AtKeyword} {i : Instr} {p : Nat} {s t : State} {r : Bytes}
    (idle : s.allIdle = true) (hp : p < s.ports.length) (parsed : atParse line = .issue kw i)
    (run : exec i s = .next t) (hout : t.out = some r) :
    atLine p line s = some (atReply kw r, t.submittedAndDelivered p) := by
  have port_idle : s.ports[p]? = some ⟨.idle, s.ports[p].reply⟩ := by
    rw [List.getElem?_eq_getElem hp, ← State.allIdle_iff.mp idle _ (List.getElem_mem hp)]
  obtain ⟨due, -, accepted⟩ := (submissionNeedsAnIdlePort s p (encode i)).1 _ port_idle
  have stepped := step_of_only_pending idle hp (decodeInvertsEncode i (issuable_of_atParse parsed).wf) run due
  obtain ⟨-, hports, -⟩ := (effect_of_exec run).frame
  have answered : (t.submittedAndDelivered p).ports[p]? = some ⟨.idle, some r⟩ :=
    hout ▸ getElem?_submittedAndDelivered (hports ▸ hp)
  have some_fuel : 0 < (s.ports.set p ⟨.pending (encode i) due, none⟩).length := by
    rw [List.length_set]
    omega
  have served := serveUntilIdle_of_step some_fuel (List.getElem?_set_self hp) stepped answered
  simp only [atLine, parsed, accepted, served, State.replyAt, answered]

/-! ### Error replies -/

/-- R308: an id in a response frame is rendered in decimal. -/
theorem atReply_ccho (id : U16) :
    atReply .ccho (Response.done (u16Bytes id)).frame =
      [ascii ['+', 'C', 'C', 'H', 'O', ':', ' '] ++ dec id.toNat, okLine] := by
  simp [atReply, Response.frame, u16Bytes]

/-- R302, R316: an issued command whose response is rendered as `ERROR` wrote nothing of the spec's state but `WORK`. -/
theorem IssuedEffect.unchanged_of_error {s t : State} {kw : AtKeyword} (h : IssuedEffect s kw t) {r : Bytes}
    (hout : t.out = some r) (error : atReply kw r = [errorLine]) : t.sess = s.sess ∧ t.nextId = s.nextId := by
  cases h with
  | refused _ e he => exact ⟨rfl, rfl⟩
  | listed => exact ⟨rfl, rfl⟩
  | opened e =>
    cases hout
    simp [atReply_ccho] at error
  | closed id =>
    cases hout
    exact absurd error (by decide)
  | answered card => exact ⟨rfl, rfl⟩
  | called cmd => exact ⟨rfl, rfl⟩

/-- Settles O58: a malformed line issues nothing; an issued command that wrote a session was answered `DONE`, which is
not rendered as `ERROR`. -/
theorem errorRepliesLeaveTheStateUnchanged : Obligations.ErrorRepliesLeaveTheStateUnchanged := by
  intro line p s t idle cleared replied
  cases parsed : atParse line with
  | malformed =>
    simp only [atLine, parsed] at replied
    cases replied
    exact ⟨rfl, rfl, rfl, rfl, idle, rfl⟩
  | query =>
    simp only [atLine, parsed] at replied
    cases replied
  | issue kw i =>
    by_cases hp : p < s.ports.length
    · obtain ⟨u, run, effect⟩ := (issuable_of_atParse parsed).exec_effect s
      obtain ⟨hcfg, hports, -, -, -, hwork⟩ := (effect_of_exec run).frame
      obtain ⟨rc, payload, hout, -⟩ := effect.resultCode
      obtain ⟨hreply, rfl⟩ : atReply kw (rc :: payload) = [errorLine] ∧ u.submittedAndDelivered p = t := by
        simpa [atLine_of_issue idle hp parsed run hout] using replied
      obtain ⟨hsess, hnextId⟩ := effect.unchanged_of_error hout hreply
      have idle' : u.allIdle = true := by rwa [State.allIdle, hports]
      refine ⟨hcfg, hsess, hnextId, hwork.trans cleared.symm, State.allIdle_submittedAndDelivered idle' p, ?_⟩
      rw [State.submittedAndDelivered, List.length_set, hports]
    · have absent : ∀ old, s.ports[p]? ≠ some ⟨.idle, old⟩ := by
        simp [List.getElem?_eq_none (Nat.le_of_not_lt hp)]
      simp only [atLine, parsed, State.submit_of_not_idle absent] at replied
      cases replied

/-! ### Card responses -/

/-- R311: a card response in a response frame is rendered with its count of hexadecimal characters. -/
theorem atReply_cgla (card : Bytes) :
    atReply .cgla (0x00 :: lv2 card) = [ascii ['+', 'C', 'G', 'L', 'A', ':', ' '] ++ dec (2 * card.length) ++
      [comma, quote] ++ hex card ++ [quote], okLine] := rfl

/-- Settles O59: the response the command gives is the one rendered, and an APDU command writes no session. -/
theorem cglaReplyRendersTheCardResponse : Obligations.CglaReplyRendersTheCardResponse := by
  intro line card i p s idle hp parsed response
  obtain ⟨t, run, effect⟩ := (issuable_of_atParse parsed).exec_effect s
  have hout : t.out = some (0x00 :: lv2 card) := (responseOf_of_exec run).symm.trans response
  obtain ⟨hsess, hnextId⟩ : t.sess = s.sess ∧ t.nextId = s.nextId := by
    cases effect <;> exact ⟨rfl, rfl⟩
  exact ⟨t.submittedAndDelivered p, hsess, hnextId, by
    rw [atLine_of_issue idle hp parsed run hout, atReply_cgla]⟩

end Sys2Proof.Machine
end

section
/-! SUPPORT. What an error, an idle machine and an instance's neighbour leave unchanged (`60_exceptions.md` R350, R370 to
R374, R384). -/

namespace Sys2Proof.Machine

/-! ### Errors are precise -/

/-- Only an error's response has a result code other than `DONE` (R95). -/
theorem Response.eq_error_of_frame {r : Response} {rc : Byte} {payload : Bytes} (h : r.frame = rc :: payload)
    (notDone : rc ≠ 0x00) : ∃ e, r = .error e := by
  cases r with
  | done _ => exact absurd (List.cons.inj h).1.symm notDone
  | error e => exact ⟨e, rfl⟩

/-- A command answered with an error code did nothing but raise that error: each effect that writes more than the
response ends in `DONE` (R350). -/
theorem Effect.eq_raise_of_error {i : Instr} {s t : State} (h : Effect i s t) {rc : Byte} {payload : Bytes}
    (hout : t.out = some (rc :: payload)) (notDone : rc ≠ 0x00) : ∃ e, t = s.raise e := by
  have code : ∀ {r : Response} {u : State}, (u.finish r).out = some (rc :: payload) → ∃ e, r = .error e :=
    fun h => Response.eq_error_of_frame (Option.some.inj h) notDone
  cases h with
  | response r =>
    obtain ⟨e, rfl⟩ := code hout
    exact ⟨e, rfl⟩
  | opened => nomatch code hout
  | closed => nomatch code hout
  | called => nomatch code hout

/-- Settles O16: a frame answered with an error code raised that error, and taking an error writes `WORK` and the
response only. -/
theorem errorsArePrecise : Obligations.ErrorsArePrecise := by
  intro frame payload rc s t run hout notDone
  obtain ⟨e, rfl⟩ : ∃ e, t = s.raise e := by
    obtain ⟨i, -, effect⟩ | rfl := runFrame_cases run
    · exact effect.eq_raise_of_error hout notDone
    · exact ⟨.frame, rfl⟩
  obtain ⟨rfl, rfl⟩ : e.rc = rc ∧ [] = payload := List.cons.inj (Option.some.inj hout)
  exact ⟨rfl, rfl⟩

/-! ### The idle machine -/

/-- Settles O7: with every port idle the arbiter chooses no command. -/
theorem idleMachineWaits : Obligations.IdleMachineWaits := by
  intro s idle
  have nothing : selectPort 0 s.ports = none := selectPort_none.mpr idle
  simp only [step, serve, nothing]

/-! ### Systems of instances -/

/-- Settles O55: an event rewrites its own instance's place in the system and no other. -/
theorem instancesShareNothing : Obligations.InstancesShareNothing := by
  intro sys k e
  refine ⟨fun j other => ?_, ?_⟩
  · exact List.getElem?_modify_ne (Instance.after e) sys (Ne.symm other)
  · exact List.getElem?_modify_eq (Instance.after e) k sys

end Sys2Proof.Machine
end

section
/-! SUPPORT. A reset of a running instance (R380, R382, R383, R386), and the command of a table word placed on port 0
(log entries 8 and 9). -/

namespace Sys2Proof.Machine

/-! ### A reset of a running instance -/

/-- What an accepted reset makes of a running instance's state, given the configuration it loads (R39, R380). -/
def State.restarted (cfg : CardConfig) (s : State) : State :=
  { s with cfg := cfg, sess := .empty, nextId := Config.sessionIdBase, work := .cleared, out := none }

/-- R380: a reset while a command is pending is refused. -/
theorem State.resetWith_of_busy {s : State} (h : s.allIdle = false) (c : ConfigRecord) : s.resetWith c = none := by
  simp [State.resetWith, h]

/-- R380: a reset with every port idle is taken, where the record loads. -/
theorem State.resetWith_of_load {s : State} {c : ConfigRecord} {cfg : CardConfig} (idle : s.allIdle = true)
    (loaded : c.load = some cfg) : s.resetWith c = some (s.restarted cfg) := by
  simp [State.resetWith, State.restarted, idle, loaded]

/-- R380, R382: a reset is taken with a valid record and every port idle only, and it restarts the state. -/
theorem State.resetWith_cases {s t : State} {c : ConfigRecord} (h : s.resetWith c = some t) :
    s.allIdle = true ∧ c.valid = true ∧ ∃ cfg, c.load = some cfg ∧ t = s.restarted cfg := by
  cases idle : s.allIdle with
  | false => cases (State.resetWith_of_busy idle c).symm.trans h
  | true =>
    cases valid : c.valid with
    | false => cases (s.resetWith_of_invalid valid).symm.trans h
    | true =>
      have loaded := ConfigRecord.load_of_valid valid
      exact ⟨rfl, rfl, _, loaded, Option.some.inj (h.symm.trans (State.resetWith_of_load idle loaded))⟩

/-- R381: the keys and the sequence number a record loads are its own bytes, since their lengths are exact. -/
theorem ConfigRecord.fields_of_load {c : ConfigRecord} {cfg : CardConfig} (valid : c.valid = true)
    (loaded : c.load = some cfg) :
    cfg.ki.toList = c.ki ∧ cfg.opc.toList = c.opc ∧ cfg.sqn.toList = c.sqn ∧ cfg.aids = c.aids ∧
      cfg.cipherAvailable = c.cipherAvailable := by
  obtain ⟨hki, hopc, hsqn, -⟩ := ConfigRecord.valid_iff.mp valid
  obtain rfl := Option.some.inj ((ConfigRecord.load_of_valid valid).symm.trans loaded)
  exact ⟨toList_fixed hki, toList_fixed hopc, toList_fixed hsqn, rfl, rfl⟩

/-- R386: restarting a restarted state changes nothing. -/
theorem State.restarted_restarted (cfg : CardConfig) (s : State) : (s.restarted cfg).restarted cfg = s.restarted cfg :=
  rfl

/-- A reset leaves the ports, so they are idle where they were (R380). -/
theorem State.allIdle_restarted (cfg : CardConfig) (s : State) : (s.restarted cfg).allIdle = s.allIdle := rfl

/-- Settles O52: a reset that is taken restarts the state over the loaded configuration, and restarting leaves the ports
idle and is idempotent. -/
theorem resetIsPartialAndIdempotent : Obligations.ResetIsPartialAndIdempotent := by
  intro n stream c s t
  refine ⟨fun invalid => ⟨boot_of_invalid n stream invalid, s.resetWith_of_invalid invalid⟩,
    fun busy => State.resetWith_of_busy busy c,
    fun valid idle => ⟨_, State.resetWith_of_load idle (ConfigRecord.load_of_valid valid)⟩, fun taken => ?taken⟩
  case taken =>
    obtain ⟨idle, valid, cfg, loaded, rfl⟩ := State.resetWith_cases taken
    obtain ⟨hki, hopc, hsqn, haids, hcipher⟩ := ConfigRecord.fields_of_load valid loaded
    have idle' : (s.restarted cfg).allIdle = true := (s.allIdle_restarted cfg).trans idle
    have again : (s.restarted cfg).resetWith c = some (s.restarted cfg) := by
      rw [State.resetWith_of_load idle' loaded, State.restarted_restarted]
    exact ⟨slots_empty, rfl, rfl, hki, hopc, hsqn, haids, hcipher, idle', rfl, again⟩

/-! ### The command of a table word -/

/-- No pending command is sooner than one of stamp 0, which stands first (log entry 3). -/
theorem Selected.sooner_of_due_zero (port : Nat) (frame : Bytes) (later : Option Selected) :
    Selected.sooner ⟨port, frame, 0⟩ later = ⟨port, frame, 0⟩ := by
  cases later with
  | none => rfl
  | some c => simp [Selected.sooner]

/-- The frame presented first is the one chosen, on port 0 (log entry 9). -/
theorem selectPort_presentFirst (frame : Bytes) (s : State) :
    selectPort 0 (s.presentFirst frame).ports = some ⟨0, frame, 0⟩ :=
  congrArg some (Selected.sooner_of_due_zero 0 frame _)

/-- A table word that decodes to a command has a well-formed frame, the command's (log entry 8). -/
theorem decode_tableFrame {nbits w : Nat} {i : Instr} (h : decodeTableWord nbits w = some i) :
    decode (tableFrame nbits w) = .ok i := by
  unfold decodeTableWord at h
  cases decoded : decode (tableFrame nbits w) with
  | error e => rw [decoded] at h; cases h
  | ok j => rw [decoded] at h; cases h; rfl

/-- Settles O8: the frame of the placed word is the one chosen, and it decodes to the word's command. -/
theorem placedWordRunsNext : Obligations.PlacedWordRunsNext := by
  intro s nbits w i decoded
  have chosen : selectPort 0 (s.withFetchWord nbits w).ports = some ⟨0, tableFrame nbits w, 0⟩ :=
    selectPort_presentFirst _ s
  rw [step_of_selected chosen, runFrame_of_decode (decode_tableFrame decoded)]

end Sys2Proof.Machine
end
